-- ==== Sys2Proof/Word.lean ====
section
/-! DEFINITION. The word types of the part and the numbers that name its records (Table 0-1). -/

namespace Sys2Proof

/-- A 32-bit word, and a 32-bit byte address (Table 0-1). -/
abbrev Word := BitVec 32

/-- A byte of the requester bus, of the device bus or of a management frame. -/
abbrev Byte := BitVec 8

/-- Requester P0 to P3, and its port (Table 0-1). -/
abbrev PortId := Fin 4

/-- The tag a requester chooses for a claim (R87). -/
abbrev Tag := Fin 4

/-- Address group A (0) to D (3) (Table 1-1). -/
abbrev GroupId := Fin 4

/-- Region slot 0 to 31 (R6). -/
abbrev RegionId := Fin 32

/-- Lease slot 0 to 63 (R49). -/
abbrev LeaseId := Fin 64

/-- Device target T0 to T7 (Table 0-1). -/
abbrev TargetId := Fin 8

/-- A claim priority or a bus priority, 0 to 3 (R61, R120). -/
abbrev Priority := Fin 4

/-- The four-bit count of a lease slot's grants (R51). -/
abbrev Generation := BitVec 4

end Sys2Proof
end

