-- ==== Sys2Proof/Syntax.lean ====
section
/-! DEFINITION. The commands of the block: one constructor of `Instr` per row of spec/opcode_table.json.
The table gives the rows no operands and no bits; the operands are those the rules of the rows name (INVENTORY.md). -/

namespace Sys2Proof

/-- Direction of an access (Table 10-1). -/
inductive Direction
  | read
  | write
  deriving DecidableEq, Repr

/-- One presentation on a requester bus (R26): Pn_A, Pn_WR, Pn_BE and Pn_D. -/
structure Presentation where
  addr : Word
  dir : Direction
  be : BitVec 4
  data : Word
  deriving DecidableEq, Repr

/-- The commands of the block, in the table's order. A command is one event of the part, taken whole. -/
inductive Instr
  /-- POWER_ON_RESET (R140). -/
  | powerOnReset
  /-- NRESET (R140): the assertion of nRESET. -/
  | nreset
  /-- RQRST_ASSERTION (R152): RQRSTn is asserted. -/
  | rqrstAssertion (p : PortId)
  /-- RQRST_DEASSERTION (R153): RQRSTn is deasserted. -/
  | rqrstDeassertion (p : PortId)
  /-- ACCESS_ARRIVAL (R26, R29): requester p presents an access. -/
  | accessArrival (p : PortId) (a : Presentation)
  /-- REQUEST_WRITE (R144): requester p writes the bytes named by `be` of REQUESTk. -/
  | requestWrite (p : PortId) (k : Fin 4) (be : BitVec 4) (data : Word)
  /-- RESULT_READ (R146): requester p reads bytes of RESULT. -/
  | resultRead (p : PortId) (be : BitVec 4)
  /-- PORT_STATUS_READ (R147): requester p reads bytes of PORT_STATUS. -/
  | portStatusRead (p : PortId) (be : BitVec 4)
  /-- NOTICE_READ (R150): requester p reads bytes of NOTICE. -/
  | noticeRead (p : PortId) (be : BitVec 4)
  /-- CLAIM (R61): requester p writes SUBMIT while its REQUEST words hold a CLAIM. The data is ignored (R145). -/
  | claim (p : PortId) (be : BitVec 4) (data : Word)
  /-- RENEW (R66): as CLAIM, the REQUEST words holding a RENEW. -/
  | renew (p : PortId) (be : BitVec 4) (data : Word)
  /-- RELEASE (R67). -/
  | release (p : PortId) (be : BitVec 4) (data : Word)
  /-- UPGRADE (R69). -/
  | upgrade (p : PortId) (be : BitVec 4) (data : Word)
  /-- DOWNGRADE (R70). -/
  | downgrade (p : PortId) (be : BitVec 4) (data : Word)
  /-- WITHDRAW (R88). -/
  | withdraw (p : PortId) (be : BitVec 4) (data : Word)
  /-- QUERY (R71). -/
  | query (p : PortId) (be : BitVec 4) (data : Word)
  /-- LOOKUP (R72). -/
  | lookup (p : PortId) (be : BitVec 4) (data : Word)
  /-- TICK (R105): the divider reaches 0. -/
  | tick
  /-- LEASE_EXPIRY (R106) of one lease slot. -/
  | leaseExpiry (id : LeaseId)
  /-- WAIT_BUDGET_EXPIRY (R107) of one waiter, named by requester and tag. -/
  | waitBudgetExpiry (p : PortId) (tag : Tag)
  /-- BUS_GRANT_DECISION (R120). -/
  | busGrantDecision
  /-- DEVICE_CYCLE_COMPLETE (R126): the cycle on the bus completes. `data` holds the bytes a read takes, the byte of
  the lowest address in bits 7 to 0 (log 12). -/
  | deviceCycleComplete (data : Word)
  /-- BUS_TIMEOUT_EXPIRY (R128). -/
  | busTimeoutExpiry
  /-- LEASE_DRAIN_END (R76) of one lease slot. -/
  | leaseDrainEnd (id : LeaseId)
  /-- RETIRE_COMPLETION (R23) of one region slot. -/
  | retireCompletion (r : RegionId)
  /-- SOFT_RESET_COMPLETION (R181). -/
  | softResetCompletion
  /-- GO_LIVE (R2). A host command is the applied write of its code to HOST_CMD; its argument stands in HOST_ARG (R178). -/
  | goLive
  /-- GROUP_SET (R7). -/
  | groupSet
  /-- REGION_COMMIT (R17). -/
  | regionCommit
  /-- REGION_SUSPEND (R20). -/
  | regionSuspend
  /-- REGION_RESUME (R21). -/
  | regionResume
  /-- RESUME_GRANT_SCAN (R95). -/
  | resumeGrantScan
  /-- REGION_RETIRE (R22). -/
  | regionRetire
  /-- LEASE_REVOKE (R78). -/
  | leaseRevoke
  /-- PORT_ONLINE (R154). -/
  | portOnline
  /-- PORT_OFFLINE (R155). -/
  | portOffline
  /-- PORT_RESTORE (R166). -/
  | portRestore
  /-- PURGE (R79). -/
  | purge
  /-- TARGET_CLEAR (R134). -/
  | targetClear
  /-- SOFT_RESET (R180). -/
  | softReset
  /-- TABLE_INDEX_WRITE (R177). A register write is an applied write frame, with the 32 bits it carries (R175). -/
  | tableIndexWrite (v : Word)
  /-- EVENT_FLAGS_WRITE (R182). -/
  | eventFlagsWrite (v : Word)
  /-- EVENT_ENABLE_WRITE (R183). -/
  | eventEnableWrite (v : Word)
  /-- WINDOW_BASE_WRITE (R4). -/
  | windowBaseWrite (v : Word)
  /-- FAULT_CONFIG_WRITE (R159, R164). -/
  | faultConfigWrite (v : Word)
  /-- CRC_CONTROL_WRITE (R174). -/
  | crcControlWrite (v : Word)
  /-- REGISTER_WRITE (R175): an applied write frame to register number `n`. -/
  | registerWrite (n : BitVec 7) (v : Word)
  /-- NCS_RISE (R173): nCS rises after `bits`, the SDI bits sampled in this low period, oldest first (log 7). -/
  | ncsRise (bits : List Bool)
  deriving DecidableEq, Repr

end Sys2Proof
end

