-- ==== Sys2Proof/Config.lean ====
section
/-! DEFINITION. What the part fixes for all time, and the one value the spec leaves open. -/

namespace Sys2Proof.Config

/-- The constant of the ID register (R176). -/
def idValue : Word := 0xA7C64001#32

/-- WINDOW_BASE after power-on reset and nRESET (R4). -/
def windowBaseReset : Word := 0xFFFFF000#32

/-- TICK_DIV after power-on reset and nRESET (R104). -/
def tickDivReset : BitVec 16 := 99#16

/-- BUS_TIMEOUT after power-on reset and nRESET (R127). -/
def busTimeoutReset : BitVec 8 := 63#8

/-- SLOTS_LOW_MARK after power-on reset and nRESET (R116). -/
def slotsLowMarkReset : BitVec 6 := 4#6

/-- FAULT_THRESHOLD after power-on reset and nRESET (R159). -/
def faultThresholdReset : Nat := 8

/-- QUARANTINE_LIMIT after power-on reset and nRESET (R159). -/
def quarantineLimitReset : Nat := 3

/-- A FREE VALUE (log 10): which of the orders of the waiting ports the start of a soft reset takes, R138 giving
none. It is applied to the count of draws in `State.freeDraws`, and nothing can evaluate it. -/
opaque resetEndOrder : Nat → Nat

end Sys2Proof.Config
end

