-- ==== Sys2Proof/Machine/State.lean ====
section
/-! DEFINITION. The records of the part, block by block as Table 0-2 owns them, and their reset values. -/

namespace Sys2Proof.Machine

/-- Map state (R1). -/
inductive MapState
  | boot
  | live
  deriving DecidableEq, Repr

/-- Region slot state (Table 1-4). -/
inductive RegionState
  | invalid
  | active
  | suspended
  | retiring
  deriving DecidableEq, Repr

/-- Port width of a region: 8, 16 or 32 bits (Table 1-2). -/
inductive PortWidth
  | w8
  | w16
  | w32
  deriving DecidableEq, Repr

/-- Ready mode of a region (Table 1-2). -/
inductive ReadyMode
  | internal
  | external
  deriving DecidableEq, Repr

/-- Rights of one requester in a region (Table 1-2). -/
inductive Rights
  | none
  | read
  | readWrite
  deriving DecidableEq, Repr

/-- Lease policy of a region (R10). -/
inductive Policy
  | openAccess
  | writeLeased
  | allLeased
  deriving DecidableEq, Repr

/-- Mode of a lease or a claim (Table 10-1). -/
inductive Mode
  | shared
  | exclusive
  deriving DecidableEq, Repr

/-- Lease slot state (R50). -/
inductive LeaseState
  | free
  | held
  | draining
  | revoked
  deriving DecidableEq, Repr

/-- Why a lease was revoked (Table 3-4). -/
inductive RevokeReason
  | expired
  | earlyLimit
  | host
  | regionRetired
  | portBarred
  | silent
  deriving DecidableEq, Repr

/-- The state a DRAINING lease enters when its access ends (Table 3-1). -/
inductive DrainEnd
  | revoked
  | free
  deriving DecidableEq, Repr

/-- Why a waiter was dropped (R148). -/
inductive DropReason
  | timedOut
  | regionGone
  | portBarred
  deriving DecidableEq, Repr

/-- Requester state (Table 8-1). -/
inductive RequesterState
  | offline
  | online
  | quarantined
  | lockedOut
  deriving DecidableEq, Repr

/-- Refusal and error reasons of the last-fault record (Table 2-1, Table 6-4). NONE is the absence of one. -/
inductive FaultReason
  | regionInactive
  | rights
  | portOffline
  | portBarred
  | resetting
  | align
  | mapBoot
  | noRegion
  | noLease
  | targetFaulted
  | targetTimeout
  deriving DecidableEq, Repr

/-- State of a port access record (Table 7-1). -/
inductive AccessState
  | idle
  | waitingBus
  | onBus
  deriving DecidableEq, Repr

/-- Target state (R131). -/
inductive TargetState
  | online
  | faulted
  deriving DecidableEq, Repr

/-- Results of host commands (R178). -/
inductive HostResult
  | ok
  | badArg
  | wrongState
  | inUse
  | overlap
  | shadowsLease
  | notHeld
  deriving DecidableEq, Repr

/-- The polynomials of CRC_CONTROL (R174). -/
inductive CrcPoly
  | p31
  | p9B
  deriving DecidableEq, Repr

/-- The ten events (R182), in the order of their bits in EVENT_FLAGS (Table 10-9). -/
inductive Event
  | frameError
  | crcError
  | cmdDone
  | cmdReject
  | targetTimeout
  | targetFaulted
  | portQuarantined
  | portLockedOut
  | leaseExpired
  | slotsLow
  deriving DecidableEq, Repr

/-- An aligned range: a start address and a size of 2 to the exponent (R15, R49). -/
structure AddrRange where
  start : Word
  exp : BitVec 6
  deriving DecidableEq, Repr

/-- The cycle fields of a region, copied into the port access record at acceptance (R11). -/
structure CycleFields where
  target : TargetId
  width : PortWidth
  waits : BitVec 4
  ready : ReadyMode
  deriving DecidableEq, Repr

/-- A group record (R6). -/
structure Group where
  valid : Bool
  exp : BitVec 6
  base : Word
  deriving DecidableEq, Repr

/-- A region slot: its installed descriptor, its state and its in-flight count (Table 1-2). -/
structure Region where
  state : RegionState
  offset : Word
  exp : BitVec 6
  cycle : CycleFields
  rights : Vector Rights 4
  policy : Policy
  term : Nat
  share : Nat
  earlyLimit : Nat
  yield : Bool
  inFlight : Nat
  deriving DecidableEq, Repr

/-- A lease record (Table 3-1); its id is its place in the table. -/
structure Lease where
  generation : Generation
  state : LeaseState
  holder : PortId
  region : RegionId
  range : AddrRange
  mode : Mode
  priority : Priority
  term : Nat
  remaining : Nat
  faults : Nat
  inFlight : Bool
  reason : Option RevokeReason
  drainEnd : Option DrainEnd
  deriving DecidableEq, Repr

/-- A waiter (Table 4-1). -/
structure Waiter where
  requester : PortId
  tag : Tag
  region : RegionId
  range : AddrRange
  mode : Mode
  priority : Priority
  term : Nat
  budget : Nat
  arrival : BitVec 16
  deriving DecidableEq, Repr

/-- A claim notice (R148). -/
inductive ClaimNotice
  | granted (id : LeaseId) (gen : Generation)
  | dropped (reason : DropReason)
  deriving DecidableEq, Repr

/-- A requester record (R141). -/
structure Requester where
  state : RequesterState
  inReset : Bool
  faults : Nat
  quarantines : Nat
  busPriority : Priority
  claimCap : Priority
  deriving DecidableEq, Repr

/-- A port access record (R142). -/
structure AccessRecord where
  state : AccessState
  addr : Word
  dir : Direction
  width : Nat
  data : Word
  region : Option RegionId
  lease : Option (LeaseId × Generation)
  cycle : CycleFields
  cyclesDone : Nat
  orphaned : Bool
  deriving DecidableEq, Repr

/-- A mailbox (R146). `result` is the RESULT word with bit 31 clear; a read puts RESULT_VALID there. -/
structure Mailbox where
  result : Word
  data : Vector Word 3
  valid : Bool
  overrun : Bool
  deriving DecidableEq, Repr

/-- A last-fault record (R44). -/
structure LastFault where
  reason : Option FaultReason
  addr : Word
  dir : Direction
  width : Nat
  deriving DecidableEq, Repr

/-- An answer on a requester bus (R42, R136, R143). A bus error carries data of all zeros. -/
inductive Answer
  | readData (w : Word)
  | writeDone
  | busError
  deriving DecidableEq, Repr

/-- All that PTC keeps for one port (R141 to R151), with the two things that stand on the requester bus itself: a
presentation not yet taken (R26, log 8) and the last answer given (log 17). -/
structure Port where
  requester : Requester
  access : AccessRecord
  request : Vector Word 4
  mailbox : Mailbox
  board : Vector (Option ClaimNotice) 4
  tombstones : Nat
  lastFault : LastFault
  standing : Option Presentation
  answer : Option Answer
  deriving DecidableEq, Repr

/-- A target record (R131). -/
structure Target where
  state : TargetState
  consecutive : Nat
  limit : Nat
  total : Nat
  lastTimeout : Word
  deriving DecidableEq, Repr

/-- The access holding the bus and its cycle in progress (R118): the port, the BCLK periods ended since the select was
asserted (R124), the loaded timeout period N (R127), and the read bytes held for the answer (R126). -/
structure BusHold where
  port : PortId
  periods : Nat
  timeout : Nat
  readData : Word
  deriving DecidableEq, Repr

/-- CRC_CONTROL (R174). -/
structure CrcConfig where
  enable : Bool
  poly : CrcPoly
  deriving DecidableEq, Repr

/-- HOST_STATUS (R178). -/
structure HostStatus where
  code : BitVec 4
  result : HostResult
  deriving DecidableEq, Repr

/-- The host command unit (R178): IDLE, or RUNNING a retire of the captured slot, or RUNNING a soft reset. -/
inductive HostUnit
  | idle
  | retiring (r : RegionId)
  | softResetting
  deriving DecidableEq, Repr

/-- The frame receiver (R172, R184): nCS high; a frame being received, with its SDI bits oldest first, the register
value captured at the end of byte 0, the CRC configuration in force at the fall of nCS, and the number of the bit that SDO
shows; or a low period of nCS that began before a hardware reset. -/
inductive Receiver
  | high
  | receiving (bits : List Bool) (captured : Word) (crc : CrcConfig) (shown : Nat)
  | abandoned
  deriving DecidableEq, Repr

/-- A pin event that no row of the table names (log 2, log 19). -/
inductive PinEvent
  /-- One REFCLK period (R103). -/
  | refclk
  /-- The end of one BCLK period, with DRDY as sampled there and the read bytes on the device bus (R124, log 12). -/
  | bclk (ready : Bool) (data : Word)
  /-- nCS falls (R172). -/
  | ncsFall
  /-- A rising edge of SCK, with SDI as sampled (R172). -/
  | sckRise (sdi : Bool)
  /-- A falling edge of SCK, at which SDO changes (R172). -/
  | sckFall
  deriving DecidableEq, Repr

/-- Map Unit state (chapter 1). -/
structure MapUnit where
  map : MapState
  windowBase : Word
  groups : Vector Group 4
  regions : Vector Region 32
  deriving DecidableEq, Repr

/-- Lease Engine state (chapters 3 and 4). -/
structure LeaseEngine where
  leases : Vector Lease 64
  freeSlots : Nat
  waiters : List Waiter
  nextArrival : BitVec 16
  /-- Scans asked for by REGION_RESUME and not yet taken (R95, log 18). -/
  resumeScans : Nat
  deriving DecidableEq, Repr

/-- Bus Sequencer state (chapter 6). -/
structure BusSequencer where
  hold : Option BusHold
  pointers : Vector PortId 4
  targets : Vector Target 8
  busTimeout : BitVec 8
  deriving DecidableEq, Repr

/-- Port Controller state (chapters 7 and 8), with the two values of FAULT_CONFIG. -/
structure PortController where
  ports : Vector Port 4
  threshold : Nat
  limit : Nat
  deriving DecidableEq, Repr

/-- Management Port state (chapter 9). -/
structure Management where
  crc : CrcConfig
  tickDiv : BitVec 16
  slotsLowMark : BitVec 6
  flags : BitVec 10
  enables : BitVec 10
  hostCmd : BitVec 4
  hostArg : BitVec 12
  hostStatus : HostStatus
  unit : HostUnit
  groupStage : Word
  regionStage : Vector Word 3
  tableSelect : BitVec 3
  tableIndex : BitVec 8
  tableData : Vector Word 4
  receiver : Receiver
  deriving DecidableEq, Repr

/-- The block: its records, its pin events to come, and the queue of commands waiting, first in, first out. -/
structure State where
  mu : MapUnit
  le : LeaseEngine
  /-- The divider counter of the Lease Clock (R103). -/
  divider : Nat
  bsq : BusSequencer
  ptc : PortController
  mgp : Management
  /-- Free values drawn so far (the model's own, log 10). -/
  freeDraws : Nat
  /-- Pin events not yet seen, first in, first out (the model's own, log 2). -/
  inputs : List PinEvent
  /-- Commands waiting, first in, first out. -/
  pending : List Instr
  deriving DecidableEq, Repr

/-- Reasons to stop: there is none. The spec gives every command an effect, and what it calls a fault is an answer, a
record or a flag. A safe choice either way: no meaning raises one. -/
inductive Fault
  deriving DecidableEq, Repr

/-- Reasons to refuse. -/
inductive Refusal
  /-- A row without a meaning, raised by its arm of `exec` only. Safe: nothing is claimed of it. No arm raises it now. -/
  | notModelled (mnemonic : String)
  deriving DecidableEq, Repr

/-- Cycle fields of the reset descriptor and of the reset port access record (R8, R142). -/
def CycleFields.reset : CycleFields :=
  { target := 0, width := .w8, waits := 0#4, ready := .internal }

/-- A group record after power-on reset (R6). -/
def Group.reset : Group := { valid := false, exp := 16#6, base := 0#32 }

/-- A region slot after power-on reset (R8). -/
def Region.reset : Region :=
  { state := .invalid, offset := 0#32, exp := 8#6, cycle := CycleFields.reset
    rights := Vector.replicate 4 .none, policy := .openAccess
    term := 1, share := 1, earlyLimit := 1, yield := false, inFlight := 0 }

/-- A FREE lease record of the given generation: the last column of Table 3-1 (R49, R53). -/
def Lease.freeWith (gen : Generation) : Lease :=
  { generation := gen, state := .free, holder := 0, region := 0, range := { start := 0#32, exp := 8#6 }
    mode := .shared, priority := 0, term := 0, remaining := 0, faults := 0, inFlight := false
    reason := none, drainEnd := none }

/-- A requester record after power-on reset (R141, R158), its in-reset flag being that of the line. -/
def Requester.reset (p : PortId) (inReset : Bool) : Requester :=
  { state := if p = 0 then .online else .offline, inReset := inReset, faults := 0, quarantines := 0
    busPriority := 0, claimCap := 3 }

/-- A port access record after power-on reset (R142). Its write data is 0, a DESIGN CHOICE (log 15). -/
def AccessRecord.reset : AccessRecord :=
  { state := .idle, addr := 0#32, dir := .read, width := 0, data := 0#32, region := none, lease := none
    cycle := CycleFields.reset, cyclesDone := 0, orphaned := false }

/-- A cleared mailbox (R146). -/
def Mailbox.cleared : Mailbox :=
  { result := 0#32, data := Vector.replicate 3 0#32, valid := false, overrun := false }

/-- An empty last-fault record (R44). -/
def LastFault.cleared : LastFault := { reason := none, addr := 0#32, dir := .read, width := 0 }

/-- A port after power-on reset (R156), with the level of its reset line and what stands on its bus (log 16). -/
def Port.reset (p : PortId) (inReset : Bool) (standing : Option Presentation) : Port :=
  { requester := Requester.reset p inReset, access := AccessRecord.reset, request := Vector.replicate 4 0#32
    mailbox := Mailbox.cleared, board := Vector.replicate 4 none, tombstones := 0
    lastFault := LastFault.cleared, standing := standing, answer := none }

/-- A target after power-on reset (Table 6-3). -/
def Target.reset : Target :=
  { state := .online, consecutive := 0, limit := 4, total := 0, lastTimeout := 0#32 }

/-- The divider's load (R103): a tick period in REFCLK periods. -/
def tickPeriod (tickDiv : BitVec 16) : Nat := (tickDiv.toNat + 1) * 256

/-- Map Unit after power-on reset (Table 1-5). -/
def MapUnit.reset : MapUnit :=
  { map := .boot, windowBase := Config.windowBaseReset, groups := Vector.replicate 4 Group.reset
    regions := Vector.replicate 32 Region.reset }

/-- Lease Engine after power-on reset (R80, R93). -/
def LeaseEngine.reset : LeaseEngine :=
  { leases := Vector.replicate 64 (Lease.freeWith 0#4), freeSlots := 64, waiters := [], nextArrival := 0#16
    resumeScans := 0 }

/-- Bus Sequencer after power-on reset (R140). -/
def BusSequencer.reset : BusSequencer :=
  { hold := none, pointers := Vector.replicate 4 3, targets := Vector.replicate 8 Target.reset
    busTimeout := Config.busTimeoutReset }

/-- Management Port after power-on reset (Table 9-1), its frame receiver given the state the nCS line leaves it (R184). -/
def Management.reset (receiver : Receiver) : Management :=
  { crc := { enable := false, poly := .p31 }, tickDiv := Config.tickDivReset
    slotsLowMark := Config.slotsLowMarkReset, flags := 0#10, enables := 0#10, hostCmd := 0#4, hostArg := 0#12
    hostStatus := { code := 0#4, result := .ok }, unit := .idle, groupStage := 0#32
    regionStage := Vector.replicate 3 0#32, tableSelect := 0#3, tableIndex := 0#8
    tableData := Vector.replicate 4 0#32, receiver := receiver }

/-- The part right after power-on reset. The pins are idle (log 16), nothing is queued. -/
def State.reset : State :=
  { mu := MapUnit.reset, le := LeaseEngine.reset, divider := tickPeriod Config.tickDivReset
    bsq := BusSequencer.reset
    ptc := { ports := #v[Port.reset 0 false none, Port.reset 1 false none, Port.reset 2 false none,
                         Port.reset 3 false none]
             threshold := Config.faultThresholdReset, limit := Config.quarantineLimitReset }
    mgp := Management.reset .high, freeDraws := 0, inputs := [], pending := [] }

end Sys2Proof.Machine
end

