-- ==== Sys2Proof/Machine/Operands.lean ====
section
/-! DEFINITION. The operand forms: byte enables and widths of an access (R26, R27), the fields of the REQUEST words
(Table 10-3), the encodings of Table 10-1 and the layouts of every word the part exchanges (R185 to R190). -/

namespace Sys2Proof.Machine

/-! ## Bit fields -/

/-- The number in the `len` bits of a word from bit `lo` up. -/
def field (w : Word) (lo len : Nat) : Nat := (w.extractLsb' lo len).toNat

/-- A number placed at bit `lo` of a word, in a field of `len` bits. -/
def place (n lo len : Nat) : Word := ((BitVec.ofNat len n).setWidth 32) <<< lo

/-- A flag placed at bit `lo`. -/
def placeBit (b : Bool) (lo : Nat) : Word := place (if b then 1 else 0) lo 1

/-! ## Byte enables (R26, R27) -/

/-- The number of bytes the enables name, 0 to 4: the width of an access as captured and recorded (R26, R32). -/
def enabledCount (be : BitVec 4) : Nat :=
  (be.getLsbD 0).toNat + (be.getLsbD 1).toNat + (be.getLsbD 2).toNat + (be.getLsbD 3).toNat

/-- The lowest byte lane the enables name (0 where they name none). -/
def lowestLane (be : BitVec 4) : Nat :=
  if be.getLsbD 0 then 0 else if be.getLsbD 1 then 1 else if be.getLsbD 2 then 2 else if be.getLsbD 3 then 3 else 0

/-- R27: the enables name 1, 2 or 4 adjacent bytes. -/
def legalWidth (be : BitVec 4) : Bool :=
  be == 1#4 || be == 2#4 || be == 4#4 || be == 8#4 || be == 3#4 || be == 6#4 || be == 12#4 || be == 15#4

/-- R27: of legal width, the address a multiple of the width and the lowest byte named the byte at the address. -/
def naturallyAligned (a : Presentation) : Bool :=
  legalWidth a.be && a.addr.toNat % enabledCount a.be == 0 && a.addr.toNat % 4 == lowestLane a.be

/-- The data lanes the enables name: lane i is bits 8i+7 to 8i (log 11). -/
def laneMask (be : BitVec 4) : Word :=
  (if be.getLsbD 0 then 0x000000FF#32 else 0#32) ||| (if be.getLsbD 1 then 0x0000FF00#32 else 0#32) |||
  (if be.getLsbD 2 then 0x00FF0000#32 else 0#32) ||| (if be.getLsbD 3 then 0xFF000000#32 else 0#32)

/-- A word with the named bytes replaced (R144). -/
def mergeBytes (old new : Word) (be : BitVec 4) : Word :=
  (old &&& ~~~(laneMask be)) ||| (new &&& laneMask be)

/-! ## Port widths (R123) -/

/-- The bytes of a port width. -/
def PortWidth.bytes : PortWidth → Nat
  | .w8 => 1
  | .w16 => 2
  | .w32 => 4

/-- R123: the device cycles of an access of `w` bytes to a port. -/
def cycleCount (w : Nat) (width : PortWidth) : Nat :=
  if width.bytes < w then w / width.bytes else 1

/-- R123: the bytes each cycle transfers, the lesser of the access width and the port width. -/
def cycleBytes (w : Nat) (width : PortWidth) : Nat := min w width.bytes

/-- R123: the address of the first byte of cycle `i`. -/
def cycleAddr (addr : Word) (w : Nat) (width : PortWidth) (i : Nat) : Word :=
  addr + BitVec.ofNat 32 (i * cycleBytes w width)

/-- The lanes of the bytes of a transfer of `n` bytes at an address, as byte enables. -/
def transferEnables (addr : Word) (n : Nat) : BitVec 4 :=
  BitVec.ofNat 4 ((2 ^ n - 1) * 2 ^ (addr.toNat % 4))

/-- R126: the read data held so far with a cycle's bytes put in the lanes of their own addresses; `data` holds the
cycle's bytes, lowest address lowest (log 12). -/
def gatherRead (sofar data : Word) (addr : Word) (n : Nat) : Word :=
  mergeBytes sofar (data <<< (8 * (addr.toNat % 4))) (transferEnables addr n)

/-! ## Encodings (Table 10-1) -/

def LeaseState.code : LeaseState → Nat
  | .free => 0
  | .held => 1
  | .draining => 2
  | .revoked => 3

def RegionState.code : RegionState → Nat
  | .invalid => 0
  | .active => 1
  | .suspended => 2
  | .retiring => 3

def RequesterState.code : RequesterState → Nat
  | .offline => 0
  | .online => 1
  | .quarantined => 2
  | .lockedOut => 3

def Mode.code : Mode → Nat
  | .shared => 0
  | .exclusive => 1

def Rights.code : Rights → Nat
  | .none => 0
  | .read => 1
  | .readWrite => 2

/-- The value of a rights field; 3 is undefined. -/
def Rights.ofCode : Nat → Option Rights
  | 0 => some .none
  | 1 => some .read
  | 2 => some .readWrite
  | _ => Option.none

def Policy.code : Policy → Nat
  | .openAccess => 0
  | .writeLeased => 1
  | .allLeased => 2

/-- The value of a policy field; 3 is undefined. -/
def Policy.ofCode : Nat → Option Policy
  | 0 => some .openAccess
  | 1 => some .writeLeased
  | 2 => some .allLeased
  | _ => none

def PortWidth.code : PortWidth → Nat
  | .w8 => 0
  | .w16 => 1
  | .w32 => 2

/-- The value of a port width field; 3 is undefined. -/
def PortWidth.ofCode : Nat → Option PortWidth
  | 0 => some .w8
  | 1 => some .w16
  | 2 => some .w32
  | _ => none

def ReadyMode.code : ReadyMode → Nat
  | .internal => 0
  | .external => 1

def directionCode : Direction → Nat
  | .read => 0
  | .write => 1

def RevokeReason.code : RevokeReason → Nat
  | .expired => 1
  | .earlyLimit => 2
  | .host => 3
  | .regionRetired => 4
  | .portBarred => 5
  | .silent => 6

/-- The revoke reason field, 0 where absent. -/
def reasonCode : Option RevokeReason → Nat
  | none => 0
  | some x => x.code

/-- The drain end field, 0 where absent. -/
def drainEndCode : Option DrainEnd → Nat
  | none => 0
  | some .revoked => 1
  | some .free => 2

/-- The reason of a DROPPED notice (Table 10-7). -/
def DropReason.code : DropReason → Nat
  | .timedOut => 1
  | .regionGone => 2
  | .portBarred => 3

/-- Last-fault reasons (Table 10-4). -/
def FaultReason.code : FaultReason → Nat
  | .regionInactive => 0x13
  | .rights => 0x15
  | .portOffline => 0x20
  | .portBarred => 0x21
  | .resetting => 0x22
  | .align => 0x23
  | .mapBoot => 0x24
  | .noRegion => 0x25
  | .noLease => 0x26
  | .targetFaulted => 0x27
  | .targetTimeout => 0x28

def AccessState.code : AccessState → Nat
  | .idle => 0
  | .waitingBus => 1
  | .onBus => 2

def TargetState.code : TargetState → Nat
  | .online => 0
  | .faulted => 1

def HostResult.code : HostResult → Nat
  | .ok => 0
  | .badArg => 1
  | .wrongState => 2
  | .inUse => 3
  | .overlap => 4
  | .shadowsLease => 5
  | .notHeld => 6

/-- Results of lease commands (Table 3-3). -/
inductive ResultCode
  | ok
  | granted
  | queued
  | conflict
  | noSlot
  | early
  | earlyRevoked
  | deniedWaiter
  | late
  | waitersAhead
  | noSuchClaim
  | notLive
  | badCommand
  | badRange
  | regionInactive
  | notLeasable
  | rights
  | tagBusy
  | selfOverlap
  | stale
  | notHeld
  deriving DecidableEq, Repr

/-- Mailbox result codes (Table 10-4). -/
def ResultCode.code : ResultCode → Nat
  | .ok => 0x00
  | .granted => 0x01
  | .queued => 0x02
  | .conflict => 0x03
  | .noSlot => 0x04
  | .early => 0x05
  | .earlyRevoked => 0x06
  | .deniedWaiter => 0x07
  | .late => 0x08
  | .waitersAhead => 0x09
  | .noSuchClaim => 0x0A
  | .notLive => 0x10
  | .badCommand => 0x11
  | .badRange => 0x12
  | .regionInactive => 0x13
  | .notLeasable => 0x14
  | .rights => 0x15
  | .tagBusy => 0x16
  | .selfOverlap => 0x17
  | .stale => 0x18
  | .notHeld => 0x19

/-! ## REQUEST words (Table 10-3) -/

/-- REQUEST0 [3:0], the command code. -/
def reqCode (w0 : Word) : Nat := field w0 0 4

/-- REQUEST0 [5:4], the tag. -/
def reqTag (w0 : Word) : Tag := (w0.extractLsb' 4 2).toFin

/-- REQUEST0 [7:6], the mode; 2 and 3 are undefined. -/
def reqMode (w0 : Word) : Option Mode :=
  match field w0 6 2 with
  | 0 => some .shared
  | 1 => some .exclusive
  | _ => none

/-- REQUEST0 [9:8], the priority. -/
def reqPriority (w0 : Word) : Priority := (w0.extractLsb' 8 2).toFin

/-- REQUEST0 [15:10] with REQUEST1: the range of a CLAIM. -/
def reqRange (w0 w1 : Word) : AddrRange := { start := w1, exp := w0.extractLsb' 10 6 }

/-- REQUEST0 [21:16], the lease id. -/
def reqLease (w0 : Word) : LeaseId := (w0.extractLsb' 16 6).toFin

/-- REQUEST0 [27:24], the generation. -/
def reqGeneration (w0 : Word) : Generation := w0.extractLsb' 24 4

/-- REQUEST2 [15:0], the requested term. -/
def reqTerm (w2 : Word) : Nat := field w2 0 16

/-- REQUEST2 [31:16], the wait budget. -/
def reqBudget (w2 : Word) : Nat := field w2 16 16

/-! ## Results and notices (Tables 10-5 to 10-8) -/

/-- What a lease command answers: its result code with the fields it carries, and the data words. -/
structure Reply where
  code : ResultCode
  lease : Option (LeaseId × Generation)
  tag : Option Tag
  reason : Option RevokeReason
  data : Vector Word 3
  deriving DecidableEq, Repr

/-- A reply that carries a code and nothing else. -/
def Reply.plain (code : ResultCode) : Reply :=
  { code := code, lease := none, tag := none, reason := none, data := Vector.replicate 3 0#32 }

/-- A reply that names a lease. -/
def Reply.ofLease (code : ResultCode) (id : LeaseId) (gen : Generation) : Reply :=
  { Reply.plain code with lease := some (id, gen) }

/-- Lease id at [13:8] and generation at [19:16], as in RESULT and NOTICE. -/
def leaseFields (l : Option (LeaseId × Generation)) : Word :=
  match l with
  | none => 0#32
  | some (id, gen) => place id.val 8 6 ||| place gen.toNat 16 4

/-- The RESULT word of a reply, bit 31 clear (Table 10-5). -/
def resultWord (r : Reply) : Word :=
  place r.code.code 0 8 ||| leaseFields r.lease ||| place ((r.tag.map (·.val)).getD 0) 20 2 |||
  place (reasonCode r.reason) 24 3

/-- RESULT_DATA0 of QUERY (Table 10-6). -/
def queryWord (l : Lease) : Word :=
  place l.state.code 0 2 ||| place l.generation.toNat 2 4 ||| place l.holder.val 6 2 ||| place l.mode.code 8 1 |||
  place l.range.exp.toNat 9 6 ||| place (reasonCode l.reason) 16 3 ||| place l.faults 20 4

/-- The NOTICE word of a claim notice (Table 10-7). The fields its kind does not carry read 0 (the model's choice, log 31). -/
def claimNoticeWord (tag : Tag) : ClaimNotice → Word
  | .granted id gen => place 1 0 3 ||| place tag.val 4 2 ||| leaseFields (some (id, gen))
  | .dropped reason => place 2 0 3 ||| place tag.val 4 2 ||| place reason.code 20 3

/-- The NOTICE word of a revocation notice (Table 10-7). The tag, which its kind does not carry, reads 0 (the model's choice,
log 31). -/
def revocationWord (id : LeaseId) (l : Lease) : Word :=
  place 3 0 3 ||| leaseFields (some (id, l.generation)) ||| place (reasonCode l.reason) 20 3

/-- The reason word of LAST_FAULT (Table 10-8). -/
def lastFaultWord (f : LastFault) : Word :=
  place ((f.reason.map (·.code)).getD 0) 0 8 ||| place f.width 8 3 ||| place (directionCode f.dir) 11 1

/-! ## Staged descriptors (Table 10-9) -/

/-- REGION_STAGE0 of a descriptor. -/
def regionWord0 (r : Region) : Word := place r.exp.toNat 0 6 ||| (r.offset &&& 0xFFFFFF00#32)

/-- REGION_STAGE1 of a descriptor. -/
def regionWord1 (r : Region) : Word :=
  place r.cycle.target.val 0 3 ||| place r.cycle.width.code 4 2 ||| place r.cycle.waits.toNat 8 4 |||
  place r.cycle.ready.code 12 1 ||| place r.policy.code 16 2 ||| place r.rights[0].code 24 2 |||
  place r.rights[1].code 26 2 ||| place r.rights[2].code 28 2 ||| place r.rights[3].code 30 2

/-- REGION_STAGE2 of a descriptor. -/
def regionWord2 (r : Region) : Word :=
  place r.term 0 16 ||| place r.share 16 3 ||| place r.earlyLimit 20 4 ||| placeBit r.yield 24

/-- The descriptor the staging words hold, where every field holds a defined encoding and the term, renewal share and
early limit lie in range: the part of R9 that does not depend on the slot. The state and in-flight count are not
staged, and stand as INVALID and 0. -/
def stagedRegion (w0 w1 w2 : Word) : Option Region :=
  match PortWidth.ofCode (field w1 4 2), Policy.ofCode (field w1 16 2), Rights.ofCode (field w1 24 2),
      Rights.ofCode (field w1 26 2), Rights.ofCode (field w1 28 2), Rights.ofCode (field w1 30 2) with
  | some width, some policy, some r0, some r1, some r2, some r3 =>
    if 1 ≤ field w2 0 16 ∧ 1 ≤ field w2 16 3 ∧ field w2 16 3 ≤ 4 ∧ 1 ≤ field w2 20 4 then
      some
        { state := .invalid, offset := w0 &&& 0xFFFFFF00#32, exp := w0.extractLsb' 0 6
          cycle := { target := (w1.extractLsb' 0 3).toFin, width := width, waits := w1.extractLsb' 8 4
                     ready := if w1.getLsbD 12 then .external else .internal }
          rights := #v[r0, r1, r2, r3], policy := policy, term := field w2 0 16, share := field w2 16 3
          earlyLimit := field w2 20 4, yield := w2.getLsbD 24, inFlight := 0 }
    else none
  | _, _, _, _, _, _ => none

/-- The group record GROUP_STAGE holds (Table 10-9). -/
def stagedGroup (w : Word) : Group :=
  { valid := w.getLsbD 0, exp := w.extractLsb' 8 6, base := w &&& 0xFFFF0000#32 }

/-! ## Snapshot records (Table 10-10) -/

/-- A snapshot: four words, the marker at bit 31 of the last. -/
def snapshotOf (d0 d1 d2 d3 : Word) : Vector Word 4 := #v[d0, d1, d2, d3 ||| 0x80000000#32]

/-- The invalid snapshot (R177, R190). -/
def invalidSnapshot : Vector Word 4 := Vector.replicate 4 0#32

def groupSnapshot (g : Group) : Vector Word 4 :=
  snapshotOf (placeBit g.valid 0 ||| place g.exp.toNat 8 6) g.base 0#32 0#32

def regionSnapshot (r : Region) : Vector Word 4 :=
  snapshotOf (regionWord0 r) (regionWord1 r) (regionWord2 r) (place r.state.code 0 2 ||| place r.inFlight 2 3)

def leaseSnapshot (l : Lease) : Vector Word 4 :=
  snapshotOf (queryWord l ||| place l.region.val 24 5) l.range.start (place l.remaining 0 16 ||| place l.term 16 16)
    (place l.priority.val 0 2 ||| placeBit l.inFlight 2 ||| place (drainEndCode l.drainEnd) 3 2)

def waiterSnapshot (w : Waiter) : Vector Word 4 :=
  snapshotOf
    (place w.requester.val 0 2 ||| place w.tag.val 2 2 ||| place w.region.val 4 5 ||| place w.mode.code 9 1 |||
      place w.priority.val 10 2 ||| place w.range.exp.toNat 12 6)
    w.range.start (place w.term 0 16 ||| place w.budget 16 16) (place w.arrival.toNat 0 16)

def targetSnapshot (t : Target) : Vector Word 4 :=
  snapshotOf
    (place t.state.code 0 1 ||| place t.consecutive 4 4 ||| place t.limit 8 4 ||| place t.total 16 16)
    t.lastTimeout 0#32 0#32

/-- DATA2 of a PORTS snapshot: the port access record. An absent region or lease reads 0 with its presence bit clear. -/
def accessWord (a : AccessRecord) : Word :=
  place a.state.code 0 2 ||| place (directionCode a.dir) 2 1 ||| place a.width 3 3 |||
  (match a.region with | none => 0#32 | some r => place r.val 6 5 ||| place 1 11 1) |||
  (match a.lease with | none => 0#32 | some (id, gen) => place id.val 12 6 ||| place gen.toNat 18 4 ||| place 1 22 1) |||
  place a.cycle.target.val 23 3 ||| place a.cycle.width.code 26 2

/-- DATA3 of a PORTS snapshot, less its marker. -/
def portWord (q : Requester) (a : AccessRecord) : Word :=
  place a.cycle.waits.toNat 0 4 ||| place a.cycle.ready.code 4 1 ||| place a.cyclesDone 5 3 |||
  placeBit a.orphaned 8 ||| place q.busPriority.val 10 2 ||| place q.claimCap.val 12 2

end Sys2Proof.Machine
end

