-- ==== Sys2Proof/Machine/Flags.lean ====
section
/-! DEFINITION. Flags and the lines driven from them: EVENT_FLAGS and MIRQ (R182, R183), the notice board's count, the
NTF lines (R151), and the status words that gather flags (R147, R176). -/

namespace Sys2Proof.Machine

/-- The bit of an event in EVENT_FLAGS and EVENT_ENABLE (Table 10-9). -/
def Event.bit : Event → Nat
  | .frameError => 0
  | .crcError => 1
  | .cmdDone => 2
  | .cmdReject => 3
  | .targetTimeout => 4
  | .targetFaulted => 5
  | .portQuarantined => 6
  | .portLockedOut => 7
  | .leaseExpired => 8
  | .slotsLow => 9

/-- The event's flag alone. -/
def Event.mask (e : Event) : BitVec 10 := 1#10 <<< e.bit

/-- R182: the flag of an event in EVENT_FLAGS. -/
def State.flagged (s : State) (e : Event) : Bool := s.mgp.flags.getLsbD e.bit

/-- R182: a raise sets the flag, enabled or not; a flag already set stays set. -/
def State.raise (e : Event) (s : State) : State :=
  { s with mgp := { s.mgp with flags := s.mgp.flags ||| e.mask } }

/-- R183: MIRQ is asserted (low) while an enabled flag is set. `true` is asserted. -/
def State.mirq (s : State) : Bool := s.mgp.flags &&& s.mgp.enables != 0#10

/-- The claim notices on a board, 0 to 4 (R147). -/
def Port.notices (q : Port) : Nat := q.board.toList.countP Option.isSome

/-- R151: NTFn is high while the board holds a claim notice or the tombstone count is above 0. -/
def Port.ntf (q : Port) : Bool := decide (0 < q.notices) || decide (0 < q.tombstones)

/-- The PORT_STATUS word of port `p` (Table 10-8, R147). -/
def portStatusWord (p : PortId) (q : Port) : Word :=
  place p.val 0 2 ||| place q.requester.state.code 2 2 ||| placeBit q.mailbox.valid 4 |||
  placeBit q.mailbox.overrun 5 ||| placeBit q.ntf 6 ||| place q.requester.faults 8 5 |||
  place q.requester.quarantines 13 3 ||| place q.notices 16 3 ||| place q.tombstones 24 7

/-- The PORTS snapshot (Table 10-10). -/
def portSnapshot (p : PortId) (q : Port) : Vector Word 4 :=
  snapshotOf (portStatusWord p q ||| placeBit q.requester.inReset 7) q.access.addr (accessWord q.access)
    (portWord q.requester q.access)

/-- MAP_STATUS, its four fields read at one moment (R176). -/
def mapStatusWord (s : State) : Word :=
  placeBit (s.mu.map == .live) 0 ||| placeBit (s.mgp.unit != .idle) 1 ||| place s.le.freeSlots 8 7 |||
  place s.le.waiters.length 16 5

end Sys2Proof.Machine
end

