-- ==== Sys2Proof/Machine/Ops.lean ====
section
/-! DEFINITION. The named operations over the records: one home for every read and write of a port, a region, a target,
a lease and the Wait List, ranges and conflict, notices, revocation, grants and the grant scan. -/

namespace Sys2Proof.Machine

/-- Ports P0 to P3. -/
def allPorts : List PortId := [0, 1, 2, 3]

/-- Lease slots 0 to 63, lowest first. -/
def allLeases : List LeaseId := List.finRange 64

/-! ## Records -/

def State.port (s : State) (p : PortId) : Port := s.ptc.ports[p]

def State.region (s : State) (r : RegionId) : Region := s.mu.regions[r]

def State.lease (s : State) (id : LeaseId) : Lease := s.le.leases[id]

def State.target (s : State) (t : TargetId) : Target := s.bsq.targets[t]

/-- Changes the records of one port. -/
def State.updPort (p : PortId) (f : Port → Port) (s : State) : State :=
  { s with ptc := { s.ptc with ports := s.ptc.ports.set p (f s.ptc.ports[p]) } }

/-- Changes the requester record of one port. -/
def State.updRequester (p : PortId) (f : Requester → Requester) (s : State) : State :=
  s.updPort p fun q => { q with requester := f q.requester }

/-- Changes the port access record of one port. -/
def State.updAccess (p : PortId) (f : AccessRecord → AccessRecord) (s : State) : State :=
  s.updPort p fun q => { q with access := f q.access }

/-- Changes one region slot. -/
def State.updRegion (r : RegionId) (f : Region → Region) (s : State) : State :=
  { s with mu := { s.mu with regions := s.mu.regions.set r (f s.mu.regions[r]) } }

/-- Changes one target record. -/
def State.updTarget (t : TargetId) (f : Target → Target) (s : State) : State :=
  { s with bsq := { s.bsq with targets := s.bsq.targets.set t (f s.bsq.targets[t]) } }

/-- Replaces the Wait List. -/
def State.setWaiters (ws : List Waiter) (s : State) : State := { s with le := { s.le with waiters := ws } }

/-- Sets who holds the bus. -/
def State.setHold (h : Option BusHold) (s : State) : State := { s with bsq := { s.bsq with hold := h } }

/-- An answer on a requester bus. -/
def State.answer (p : PortId) (a : Answer) (s : State) : State := s.updPort p fun q => { q with answer := some a }

/-! ## Ranges and conflict -/

/-- First byte of a range. -/
def AddrRange.lo (r : AddrRange) : Nat := r.start.toNat

/-- One past the last byte of a range. -/
def AddrRange.hi (r : AddrRange) : Nat := r.start.toNat + 2 ^ r.exp.toNat

/-- The range contains an address. -/
def AddrRange.contains (r : AddrRange) (x : Word) : Bool := decide (r.lo ≤ x.toNat) && decide (x.toNat < r.hi)

/-- The range contains all of another. -/
def AddrRange.covers (r q : AddrRange) : Bool := decide (r.lo ≤ q.lo) && decide (q.hi ≤ r.hi)

/-- The two ranges share a byte. -/
def AddrRange.overlaps (r q : AddrRange) : Bool := decide (r.lo < q.hi) && decide (q.lo < r.hi)

/-- The start is a multiple of the size (R15). -/
def AddrRange.aligned (r : AddrRange) : Bool := r.start.toNat % 2 ^ r.exp.toNat == 0

/-- R54: the ranges overlap and at least one of the modes is EXCLUSIVE. -/
def conflict (r : AddrRange) (m : Mode) (r' : AddrRange) (m' : Mode) : Bool :=
  r.overlaps r' && (m == .exclusive || m' == .exclusive)

/-- R50: HELD or DRAINING. -/
def Lease.live (l : Lease) : Bool := l.state == .held || l.state == .draining

/-- R54: a range in a mode conflicts with some live lease. -/
def State.conflictsLive (s : State) (r : AddrRange) (m : Mode) : Bool :=
  allLeases.any fun id => (s.lease id).live && conflict (s.lease id).range (s.lease id).mode r m

/-- R54: a range in a mode conflicts with some waiter of a list. -/
def conflictsWaiter (ws : List Waiter) (r : AddrRange) (m : Mode) : Bool :=
  ws.any fun w => conflict w.range w.mode r m

/-! ## The lease table and its two counts -/

/-- R149: the change of a requester's tombstone count when one of its leases stops being REVOKED. -/
def State.uncountTombstone (l : Lease) (s : State) : State :=
  if l.state = .revoked then s.updPort l.holder fun q => { q with tombstones := q.tombstones - 1 } else s

/-- R149: the change of a requester's tombstone count when one of its leases becomes REVOKED. -/
def State.countTombstone (l : Lease) (s : State) : State :=
  if l.state = .revoked then s.updPort l.holder fun q => { q with tombstones := q.tombstones + 1 } else s

/-- R52: the free-slot count after a slot's state changes. -/
def freeSlotsAfter (n : Nat) (was now : LeaseState) : Nat :=
  if was = .free ∧ now ≠ .free then n - 1 else if was ≠ .free ∧ now = .free then n + 1 else n

/-- Writes one lease record, and with it the free-slot count (R52) and the tombstone counts (R149). -/
def State.putLease (id : LeaseId) (l : Lease) (s : State) : State :=
  let old := s.lease id
  let s1 : State :=
    { s with le := { s.le with leases := s.le.leases.set id l
                               freeSlots := freeSlotsAfter s.le.freeSlots old.state l.state } }
  (s1.uncountTombstone old).countTombstone l

/-- R53: the slot passes into FREE, keeping its generation. -/
def State.freeLease (id : LeaseId) (s : State) : State :=
  s.putLease id (Lease.freeWith (s.lease id).generation)

/-- R52: the lowest-numbered FREE slot. -/
def State.lowestFree (s : State) : Option LeaseId := allLeases.find? fun id => (s.lease id).state == .free

/-- R62: the term of a grant: a requested term of 0, or one above the region's, is the region's. -/
def cappedTerm (requested regionTerm : Nat) : Nat :=
  if requested = 0 ∨ regionTerm < requested then regionTerm else requested

/-- R116: SLOTS_LOW is raised when a grant lowers the free-slot count from above the mark to at or below it. -/
def State.weighSlotsLow (before : Nat) (s : State) : State :=
  if s.mgp.slotsLowMark.toNat < before ∧ s.le.freeSlots ≤ s.mgp.slotsLowMark.toNat then s.raise .slotsLow else s

/-- R53, R63, R97: a grant into a FREE slot: the generation advances, every field comes from the claim, the term is
capped against the region term installed now, and SLOTS_LOW is weighed. -/
def State.grantLease (id : LeaseId) (holder : PortId) (region : RegionId) (range : AddrRange) (mode : Mode)
    (priority : Priority) (requested : Nat) (s : State) : State :=
  let term := cappedTerm requested (s.region region).term
  (s.putLease id
    { generation := (s.lease id).generation + 1#4, state := .held, holder := holder, region := region
      range := range, mode := mode, priority := priority, term := term, remaining := term, faults := 0
      inFlight := false, reason := none, drainEnd := none }).weighSlotsLow s.le.freeSlots

/-! ## Notices and waiters -/

/-- R148: PTC places a claim notice under its tag. -/
def State.placeNotice (p : PortId) (tag : Tag) (n : ClaimNotice) (s : State) : State :=
  s.updPort p fun q => { q with board := q.board.set tag (some n) }

/-- R89: the waiters of the list that `out` names leave it, each with a DROPPED notice of the reason. -/
def State.dropWaiters (out : Waiter → Bool) (reason : DropReason) (s : State) : State :=
  (s.le.waiters.filter out).foldl (fun s w => s.placeNotice w.requester w.tag (.dropped reason))
    (s.setWaiters (s.le.waiters.filter fun w => !out w))

/-- R89: the waiters of the list that `out` names leave it without a notice. -/
def State.removeWaiters (out : Waiter → Bool) (s : State) : State :=
  s.setWaiters (s.le.waiters.filter fun w => !out w)

/-- R82: a new waiter is placed behind every waiter of equal or higher priority and ahead of every lower one. -/
def insertWaiter (w : Waiter) : List Waiter → List Waiter
  | [] => [w]
  | v :: ws => if w.priority ≤ v.priority then v :: insertWaiter w ws else w :: v :: ws

/-! ## Revocation -/

/-- R73: LE takes a revocation of one lease. A lease that is not HELD is left as it is (R74). -/
def State.revoke (x : RevokeReason) (id : LeaseId) (s : State) : State :=
  let l := s.lease id
  if l.state ≠ .held then s
  else if l.inFlight then
    s.putLease id
      { l with state := .draining, reason := some x, drainEnd := some (if x = .silent then .free else .revoked) }
  else if x = .silent then s.freeLease id
  else s.putLease id { l with state := .revoked, reason := some x }

/-- R74: a revocation request reaches every HELD lease that `which` names. -/
def State.revokeAll (x : RevokeReason) (which : Lease → Bool) (s : State) : State :=
  allLeases.foldl (fun s id => if which (s.lease id) then s.revoke x id else s) s

/-- R75: the SILENT clearing of one lease slot of requester `p`. -/
def State.clearSlot (p : PortId) (id : LeaseId) (s : State) : State :=
  let l := s.lease id
  if l.holder ≠ p then s
  else
    match l.state with
    | .free => s
    | .held => s.revoke .silent id
    | .draining => s.putLease id { l with reason := some .silent, drainEnd := some .free }
    | .revoked => s.freeLease id

/-! ## The grant scan -/

/-- R97: the scan grants a waiter the slot `id` and places its GRANTED notice. -/
def State.grantWaiter (id : LeaseId) (w : Waiter) (s : State) : State :=
  (s.grantLease id w.requester w.region w.range w.mode w.priority w.term).placeNotice w.requester w.tag
    (.granted id ((s.lease id).generation + 1#4))

/-- R96: the walk. `ahead` are the waiters already walked that are still in the list, in order. -/
def scanWalk (ahead : List Waiter) : List Waiter → State → State
  | [], s => s.setWaiters ahead
  | w :: ws, s =>
    if (s.region w.region).state = .suspended then scanWalk (ahead ++ [w]) ws s
    else if s.conflictsLive w.range w.mode || conflictsWaiter ahead w.range w.mode then scanWalk (ahead ++ [w]) ws s
    else
      match s.lowestFree with
      | none => s.setWaiters (ahead ++ w :: ws)
      | some id => scanWalk ahead ws (s.grantWaiter id w)

/-- R96: a grant scan over the Wait List. -/
def State.grantScan (s : State) : State := scanWalk [] s.le.waiters s

/-- R94: the changes at one lease slot that start a scan: it leaves the live states, becomes FREE, or goes from
EXCLUSIVE to SHARED. -/
def slotTriggers (was now : Lease) : Bool :=
  (was.live && !now.live) || (was.state != .free && now.state == .free) ||
  (was.live && now.live && was.mode == .exclusive && now.mode == .shared)

/-- R94: whether the change from one state of LE's records to another may make a waiter grantable: a waiter joined or
left, or a slot changed so. -/
def scanDue (before after : State) : Bool :=
  before.le.waiters.length != after.le.waiters.length ||
  allLeases.any fun id => slotTriggers (before.lease id) (after.lease id)

/-- R94, R95: the one scan an event at LE ends with, where its changes call for one (log 9). A barring scans without this
test (log 28). -/
def State.settle (before after : State) : State := if scanDue before after then after.grantScan else after

/-! ## Requests PTC sends to LE -/

/-- R75, R92: the clearing request for requester `p`. Its scan is made under the condition of R75 (log 28). -/
def State.clearRequest (p : PortId) (s : State) : State :=
  s.settle ((allLeases.foldl (fun s id => s.clearSlot p id) s).removeWaiters fun w => w.requester == p)

/-- R91, R163, R164: the barring requests for the requesters that `who` names, taken together, and the one grant scan that
follows them, made whether or not anything was revoked or dropped (the model's choice, log 28). -/
def State.barRequest (who : PortId → Bool) (s : State) : State :=
  ((s.revokeAll .portBarred fun l => who l.holder).dropWaiters (fun w => who w.requester) .portBarred).grantScan

/-! ## Faults of a requester (R160, R161) -/

/-- R161, steps 1 to 3: the fault count becomes 0, the quarantine count rises unless it is at the limit, and the state
becomes LOCKED_OUT at the limit and QUARANTINED below it, with its event. -/
def State.enterBarring (p : PortId) (s : State) : State :=
  let q := (s.port p).requester.quarantines
  let q' := if q = s.ptc.limit then q else q + 1
  let locked := q' = s.ptc.limit
  (s.updRequester p fun r =>
    { r with faults := 0, quarantines := q', state := if locked then .lockedOut else .quarantined }).raise
    (if locked then .portLockedOut else .portQuarantined)

/-- R160, R161: a counted fault, and the barring when the count reaches FAULT_THRESHOLD. -/
def State.countFault (p : PortId) (s : State) : State :=
  let s1 := s.updRequester p fun r => { r with faults := r.faults + 1 }
  if s1.ptc.threshold ≤ (s1.port p).requester.faults then (s1.enterBarring p).barRequest (fun x => x == p) else s1

/-- R152 step 4, R155: PTC clears the records of a requester: notices, tombstone count, mailbox, REQUEST words,
last-fault record and fault count. -/
def State.clearPort (p : PortId) (s : State) : State :=
  s.updPort p fun q =>
    { q with board := Vector.replicate 4 none, tombstones := 0, mailbox := Mailbox.cleared
             request := Vector.replicate 4 0#32, lastFault := LastFault.cleared
             requester := { q.requester with faults := 0 } }

/-! ## Completion of host commands (R178) -/

/-- R178: HOST_STATUS takes the code and the result, the unit is IDLE, and CMD_DONE is raised. -/
def State.finish (code : BitVec 4) (result : HostResult) (s : State) : State :=
  State.raise .cmdDone
    { s with mgp := { s.mgp with hostStatus := { code := code, result := result }, unit := .idle } }

/-- R23: the slot is RETIRING, its in-flight count is 0 and no DRAINING lease names it. -/
def State.retireDone (s : State) (r : RegionId) : Bool :=
  (s.region r).state == .retiring && (s.region r).inFlight == 0 &&
  allLeases.all fun id => !((s.lease id).state == .draining && (s.lease id).region == r)

/-- R23: the retire completion test: at completion the slot becomes INVALID, keeping its fields, and REGION_RETIRE
(code 6) completes OK. -/
def State.retireTest (r : RegionId) (s : State) : State :=
  if s.retireDone r then (s.updRegion r fun d => { d with state := .invalid }).finish 6#4 .ok else s

/-- No port waits for the bus (R119). -/
def State.noneWaiting (s : State) : Bool := allPorts.all fun p => (s.port p).access.state != .waitingBus

/-- R181 at PTC: a port at the completion of a soft reset. The pins, the configuration and the quarantine count stay. -/
def softResetPort (p : PortId) (q : Port) : Port :=
  { q with
    requester := { q.requester with
      faults := 0
      state := if q.requester.state = .lockedOut then .lockedOut else if p = 0 then .online else .offline }
    access := AccessRecord.reset, request := Vector.replicate 4 0#32, mailbox := Mailbox.cleared
    board := Vector.replicate 4 none, tombstones := 0, lastFault := LastFault.cleared }

/-- Every element of a table changed, by its number. -/
def mapTable {α : Type} {n : Nat} (v : Vector α n) (f : Fin n → α → α) : Vector α n :=
  ⟨⟨(List.finRange n).map fun i => f i v[i]⟩, by simp⟩

/-- R181: the completion of a soft reset, one event across all blocks. SOFT_RESET has code 13. -/
def State.completeSoftReset (s : State) : State :=
  State.finish 13#4 .ok
    { s with
      le := { s.le with leases := mapTable s.le.leases fun _ l => Lease.freeWith l.generation
                        freeSlots := 64, waiters := [], nextArrival := 0#16 }
      ptc := { s.ptc with ports := mapTable s.ptc.ports softResetPort }
      mu := { s.mu with regions := mapTable s.mu.regions fun _ r => { r with inFlight := 0 } }
      bsq := { s.bsq with targets := mapTable s.bsq.targets fun _ t => { t with state := .online, consecutive := 0 }
                          pointers := Vector.replicate 4 3 } }

/-- R138, R180: BSQ's report that the bus is FREE and no port waits completes a running soft reset. -/
def State.softResetReport (s : State) : State :=
  if s.mgp.unit = .softResetting ∧ s.bsq.hold = none ∧ s.noneWaiting = true then s.completeSoftReset else s

/-! ## The end of an access (R135) -/

/-- How an accepted access ends (Table 6-4): COMPLETED, with the data of a read, or an error. -/
inductive AccessEnd
  | completed (data : Word)
  | failed (reason : FaultReason)
  deriving DecidableEq, Repr

/-- Step 1 of R135, R136, R137: the answer, with the last-fault record of an error, and the record to IDLE; an orphaned
access gets neither. -/
def State.endAnswer (p : PortId) (e : AccessEnd) (s : State) : State :=
  s.updPort p fun q =>
    let idle := { q with access := { q.access with state := .idle } }
    if q.access.orphaned then idle
    else
      match e with
      | .completed data =>
        { idle with answer := some (if q.access.dir = .read then .readData data else .writeDone) }
      | .failed reason =>
        { idle with answer := some .busError
                    lastFault := { reason := some reason, addr := q.access.addr, dir := q.access.dir
                                   width := q.access.width } }

/-- R76: a DRAINING lease reaches its drain end: the slot becomes REVOKED or FREE, LE reports to MU, which makes its
retire completion test, and a grant scan follows. -/
def State.drainLease (id : LeaseId) (s : State) : State :=
  let l := s.lease id
  let s1 :=
    if l.drainEnd = some .free then s.freeLease id
    else s.putLease id { l with state := .revoked, inFlight := false, drainEnd := none }
  s.settle (s1.retireTest l.region)

/-- R76: the end request for the lease an access was accepted under. -/
def State.endUnder (id : LeaseId) (gen : Generation) (s : State) : State :=
  let l := s.lease id
  if l.generation ≠ gen then s
  else
    match l.state with
    | .held => s.putLease id { l with inFlight := false }
    | .draining => s.drainLease id
    | .free => s
    | .revoked => s

/-- Step 2 of R135: the region's in-flight count falls by 1, and MU makes its retire completion test. -/
def State.endRegion (r : Option RegionId) (s : State) : State :=
  match r with
  | none => s
  | some r => (s.updRegion r fun d => { d with inFlight := d.inFlight - 1 }).retireTest r

/-- Step 3 of R135. -/
def State.endLease (l : Option (LeaseId × Generation)) (s : State) : State :=
  match l with
  | none => s
  | some (id, gen) => s.endUnder id gen

/-- Step 4 of R135: where the access held the bus, the bus becomes FREE, and a running soft reset gets BSQ's report. -/
def State.endBus (p : PortId) (s : State) : State :=
  if s.bsq.hold.map (·.port) = some p then (s.setHold none).softResetReport else s

/-- R135: the end of port `p`'s accepted access, one event in four steps. -/
def State.endAccess (p : PortId) (e : AccessEnd) (s : State) : State :=
  let a := (s.port p).access
  ((((s.endAnswer p e).endRegion a.region).endLease a.lease).endBus p)

/-! ## Hardware reset (R140) -/

/-- What a hardware reset leaves of the frame receiver: a low period of nCS that began before it is abandoned (R184). -/
def Receiver.atReset : Receiver → Receiver
  | .high => .high
  | .receiving _ _ _ _ => .abandoned
  | .abandoned => .abandoned

/-- R140, R156: power-on reset and nRESET. Every record takes its reset value; what stays is on the pins: the reset lines
and presentations of the requesters, the level of nCS (log 16), and what waits outside the part. -/
def State.hardwareReset (s : State) : State :=
  { State.reset with
    ptc := { State.reset.ptc with
      ports := mapTable s.ptc.ports fun p q => Port.reset p q.requester.inReset q.standing }
    mgp := Management.reset s.mgp.receiver.atReset
    freeDraws := s.freeDraws, inputs := s.inputs, pending := s.pending }

end Sys2Proof.Machine
end

