-- ==== Sys2Proof/Machine/Decoding.lean ====
section
/-! DEFINITION. The Map Unit's answers: where an address goes (R13) and where a range goes (R15), and the well-formedness
of a staged descriptor for its slot (R9). -/

namespace Sys2Proof.Machine

/-- Groups A to D. -/
def allGroups : List GroupId := [0, 1, 2, 3]

/-- R6: the group that owns a slot. -/
def groupOf (r : RegionId) : GroupId := ⟨r.val / 8, by omega⟩

/-- R6: the slots of a group, lowest first. -/
def slotsOf (g : GroupId) : List RegionId := (List.finRange 8).map fun i => ⟨8 * g.val + i.val, by omega⟩

/-- R6: the extent of a group. -/
def Group.extent (g : Group) : AddrRange := { start := g.base, exp := g.exp }

/-- R9: the extent of a region in its group. -/
def Region.extent (g : Group) (d : Region) : AddrRange := { start := g.base + d.offset, exp := d.exp }

/-- The extent of an installed slot. -/
def MapUnit.extent (m : MapUnit) (r : RegionId) : AddrRange := (m.regions[r]).extent m.groups[groupOf r]

/-- R4: the 4,096 bytes of the command window. -/
def MapUnit.window (m : MapUnit) : AddrRange := { start := m.windowBase, exp := 12#6 }

/-- R13: the VALID group that contains an address. -/
def MapUnit.groupAt (m : MapUnit) (x : Word) : Option GroupId :=
  allGroups.find? fun g => (m.groups[g]).valid && (m.groups[g]).extent.contains x

/-- R13 step 4: the lowest-numbered slot of the group that is not INVALID and whose extent contains the address. -/
def MapUnit.slotAt (m : MapUnit) (g : GroupId) (x : Word) : Option RegionId :=
  (slotsOf g).find? fun r => (m.regions[r]).state != .invalid && (m.extent r).contains x

/-- Address decode results (Table 1-3). -/
inductive Decoded
  | window
  | bootRead
  | mapBoot
  | noRegion
  | inactive (r : RegionId)
  | region (r : RegionId)
  deriving DecidableEq, Repr

/-- Steps 3 and 4 of R13: the decode by groups and regions. -/
def MapUnit.decodeLive (m : MapUnit) (x : Word) : Decoded :=
  match m.groupAt x with
  | none => .noRegion
  | some g =>
    match m.slotAt g x with
    | none => .noRegion
    | some r => if (m.regions[r]).state = .active then .region r else .inactive r

/-- R13, with boot decode (R5): MU decodes the address of an access of requester `p`. -/
def MapUnit.decode (m : MapUnit) (p : PortId) (dir : Direction) (x : Word) : Decoded :=
  if m.window.contains x then .window
  else if m.map = .boot then (if p = 0 ∧ dir = .read then .bootRead else .mapBoot)
  else m.decodeLive x

/-- R15: the slot a range decodes to, or none for BAD_RANGE. The slot found is the lowest of the group that is not
INVALID and overlaps the range, and it contains all of it. That a lower slot over all of the range is the answer, as R15 and
the example of section 1.10 have it, where R17 and R102 say BAD_RANGE of a range that a commit on a lower slot came to lie
over, is the model's reading (log 30). -/
def MapUnit.decodeRange (m : MapUnit) (q : AddrRange) : Option RegionId :=
  if m.map = .boot ∨ m.window.overlaps q then none
  else
    match allGroups.find? fun g => (m.groups[g]).valid && (m.groups[g]).extent.covers q with
    | none => none
    | some g =>
      match (slotsOf g).find? fun r => (m.regions[r]).state != .invalid && (m.extent r).overlaps q with
      | none => none
      | some r => if (m.extent r).covers q then some r else none

/-- R9: the part of well-formedness that depends on the slot: its group is VALID, the size fits, and the extent lies
aligned inside the group. -/
def fitsGroup (g : Group) (d : Region) : Bool :=
  g.valid && decide (8 ≤ d.exp.toNat) && decide (d.exp.toNat ≤ g.exp.toNat) &&
  d.offset.toNat % 2 ^ d.exp.toNat == 0 && decide (d.offset.toNat + 2 ^ d.exp.toNat ≤ 2 ^ g.exp.toNat)

/-- The boot cycle fields (R5). -/
def bootCycle : CycleFields := { target := 0, width := .w8, waits := 15#4, ready := .external }

/-- R16: a region slot is in use. -/
def State.inUse (s : State) (r : RegionId) : Bool :=
  (allLeases.any fun id => (s.lease id).live && (s.lease id).region == r) ||
  (s.le.waiters.any fun w => w.region == r) || decide (0 < (s.region r).inFlight)

/-- R17 check 6: an extent overlaps the range of a live lease or a waiter that names a higher-numbered slot of the same
group. -/
def State.shadowsLease (s : State) (r : RegionId) (q : AddrRange) : Bool :=
  let higher := fun (r' : RegionId) => decide (r < r') && groupOf r' == groupOf r
  (allLeases.any fun id =>
    (s.lease id).live && higher (s.lease id).region && (s.lease id).range.overlaps q) ||
  s.le.waiters.any fun w => higher w.region && w.range.overlaps q

end Sys2Proof.Machine
end

