-- ==== Sys2Proof/Machine/LeaseOps.lean ====
section
/-! DEFINITION. The lease commands at the Lease Engine (R59 to R72, R88, R110 to R112): each takes the requester and the
REQUEST words, and answers the changed state, its grant scan made, with the reply for the mailbox. -/

namespace Sys2Proof.Machine

/-! ## CLAIM (R61 to R64, R85, R86) -/

/-- R61, R187: the fields of a CLAIM lie in range. -/
def claimInRange (w0 w1 : Word) : Bool :=
  let q := reqRange w0 w1
  decide (8 ≤ q.exp.toNat) && decide (q.exp.toNat ≤ 32) && q.aligned && (reqMode w0).isSome

/-- R61 check 5: the tag is waiting or notified (R87). -/
def State.tagBusy (s : State) (p : PortId) (tag : Tag) : Bool :=
  (s.le.waiters.any fun w => w.requester == p && w.tag == tag) || ((s.port p).board[tag]).isSome

/-- R56: the range overlaps a live lease or a waiting claim of the requester. -/
def State.selfOverlap (s : State) (p : PortId) (q : AddrRange) : Bool :=
  (allLeases.any fun id => (s.lease id).live && (s.lease id).holder == p && (s.lease id).range.overlaps q) ||
  s.le.waiters.any fun w => w.requester == p && w.range.overlaps q

/-- R61: the checks of a CLAIM on a range in a mode under a tag: the slot it names, or the result that refuses it. -/
def State.checkClaim (s : State) (p : PortId) (tag : Tag) (q : AddrRange) (m : Mode) : Except ResultCode RegionId :=
  match s.mu.decodeRange q with
  | none => .error .badRange
  | some r =>
    let d := s.region r
    if d.state ≠ .active then .error .regionInactive
    else if d.policy = .openAccess then .error .notLeasable
    else if d.rights[p] = .none ∨ (m = .exclusive ∧ d.rights[p] = .read) then .error .rights
    else if s.tagBusy p tag then .error .tagBusy
    else if s.selfOverlap p q then .error .selfOverlap
    else .ok r

/-- R62: the claim priority, capped. -/
def State.cappedPriority (s : State) (p : PortId) (priority : Priority) : Priority :=
  min priority (s.port p).requester.claimCap

/-- R83, R85: a claim enters the Wait List. -/
def State.enterWaiter (w : Waiter) (s : State) : State :=
  { s with le := { s.le with waiters := insertWaiter { w with arrival := s.le.nextArrival } s.le.waiters
                             nextArrival := s.le.nextArrival + 1#16 } }

/-- R63, R64: a checked and capped claim is weighed: granted at once, answered CONFLICT or NO_SLOT, or queued with a
grant scan after it. The arrival sequence of `w` is filled at entry. -/
def State.weighClaim (w : Waiter) (s : State) : State × Reply :=
  let blocked := s.conflictsLive w.range w.mode || conflictsWaiter s.le.waiters w.range w.mode
  match blocked, s.lowestFree with
  | false, some id =>
    (s.grantLease id w.requester w.region w.range w.mode w.priority w.term,
      Reply.ofLease .granted id ((s.lease id).generation + 1#4))
  | _, _ =>
    if w.budget = 0 then (s, Reply.plain (if blocked then .conflict else .noSlot))
    else (s.settle (s.enterWaiter w), { Reply.plain .queued with tag := some w.tag })

/-- CLAIM, after the common checks but for the ranges of its fields. -/
def State.leClaim (p : PortId) (w0 w1 w2 : Word) (s : State) : State × Reply :=
  match reqMode w0, claimInRange w0 w1 with
  | some m, true =>
    match s.checkClaim p (reqTag w0) (reqRange w0 w1) m with
    | .error code => (s, Reply.plain code)
    | .ok r =>
      s.weighClaim
        { requester := p, tag := reqTag w0, region := r, range := reqRange w0 w1, mode := m
          priority := s.cappedPriority p (reqPriority w0), term := reqTerm w2, budget := reqBudget w2
          arrival := 0#16 }
  | _, _ => (s, Reply.plain .badCommand)

/-! ## Commands that name a lease by id and generation -/

/-- R60: the identity checks of RENEW, UPGRADE and DOWNGRADE. -/
def State.identity (s : State) (p : PortId) (id : LeaseId) (gen : Generation) : Option ResultCode :=
  if (s.lease id).generation ≠ gen then some .stale
  else if (s.lease id).state ≠ .held ∨ (s.lease id).holder ≠ p then some .notHeld
  else none

/-- R110: a RENEW of the lease is early. -/
def isEarly (l : Lease) (d : Region) : Bool := decide (l.term * d.share < l.remaining * 4)

/-- R101: a waiter that conflicts with the lease has a priority strictly above the lease's. -/
def State.deniedByWaiter (s : State) (l : Lease) : Bool :=
  s.le.waiters.any fun w => conflict w.range w.mode l.range l.mode && decide (l.priority < w.priority)

/-- RENEW (R66, R110 to R112). -/
def State.leRenew (p : PortId) (w0 : Word) (s : State) : State × Reply :=
  let id := reqLease w0
  let reply := fun c => Reply.ofLease c id (reqGeneration w0)
  match s.identity p id (reqGeneration w0) with
  | some c => (s, reply c)
  | none =>
    let l := s.lease id
    let d := s.region l.region
    if isEarly l d then
      let s1 := s.putLease id { l with faults := l.faults + 1 }
      if d.earlyLimit ≤ l.faults + 1 then (s.settle (s1.revoke .earlyLimit id), reply .earlyRevoked)
      else (s1, reply .early)
    else if d.yield && s.deniedByWaiter l then (s, reply .deniedWaiter)
    else
      ((s.putLease id { l with remaining := l.term }).updRequester p fun r => { r with faults := r.faults - 1 },
        reply .ok)

/-- RELEASE (R67): a HELD lease of the requester ends OK, a tombstone of it is acknowledged LATE. -/
def State.leRelease (p : PortId) (w0 : Word) (s : State) : State × Reply :=
  let id := reqLease w0
  let reply := fun c => Reply.ofLease c id (reqGeneration w0)
  let l := s.lease id
  if l.generation ≠ reqGeneration w0 then (s, reply .stale)
  else if l.holder ≠ p then (s, reply .notHeld)
  else
    match l.state with
    | .held => (s.settle (s.freeLease id), reply .ok)
    | .revoked => (s.settle (s.freeLease id), { reply .late with reason := l.reason })
    | .free => (s, reply .notHeld)
    | .draining => (s, reply .notHeld)

/-- UPGRADE (R69). -/
def State.leUpgrade (p : PortId) (w0 : Word) (s : State) : State × Reply :=
  let id := reqLease w0
  let reply := fun c => Reply.ofLease c id (reqGeneration w0)
  match s.identity p id (reqGeneration w0) with
  | some c => (s, reply c)
  | none =>
    let l := s.lease id
    let d := s.region l.region
    if l.mode = .exclusive then (s, reply .ok)
    else if d.rights[p] ≠ .readWrite then (s, reply .rights)
    else if d.state ≠ .active then (s, reply .regionInactive)
    else if allLeases.any fun j =>
        (s.lease j).live && (s.lease j).holder != p && (s.lease j).range.overlaps l.range then (s, reply .conflict)
    else if s.le.waiters.any fun w => w.range.overlaps l.range then (s, reply .waitersAhead)
    else (s.putLease id { l with mode := .exclusive }, reply .ok)

/-- DOWNGRADE (R70). -/
def State.leDowngrade (p : PortId) (w0 : Word) (s : State) : State × Reply :=
  let id := reqLease w0
  let reply := fun c => Reply.ofLease c id (reqGeneration w0)
  match s.identity p id (reqGeneration w0) with
  | some c => (s, reply c)
  | none =>
    let l := s.lease id
    if l.mode = .exclusive then (s.settle (s.putLease id { l with mode := .shared }), reply .ok)
    else (s, reply .ok)

/-! ## WITHDRAW, QUERY and LOOKUP -/

/-- WITHDRAW (R88). -/
def State.leWithdraw (p : PortId) (w0 : Word) (s : State) : State × Reply :=
  let mine := fun (w : Waiter) => w.requester == p && w.tag == reqTag w0
  if s.le.waiters.any mine then (s.settle (s.removeWaiters mine), Reply.plain .ok)
  else (s, Reply.plain .noSuchClaim)

/-- QUERY (R71): the record of any slot, with no change. -/
def State.leQuery (w0 : Word) (s : State) : State × Reply :=
  let id := reqLease w0
  let l := s.lease id
  (s, { Reply.ofLease .ok id l.generation with
        data := #v[queryWord l, l.range.start, place l.remaining 0 16] })

/-- R72: the region LOOKUP reports. -/
def State.lookupSlot (s : State) (p : PortId) (x : Word) : Option RegionId :=
  match s.mu.decode p .read x with
  | .region r => some r
  | .inactive r => some r
  | .window => none
  | .bootRead => none
  | .mapBoot => none
  | .noRegion => none

/-- R72: the live lease of the requester whose range contains the address. -/
def State.ownLease (s : State) (p : PortId) (x : Word) : Option LeaseId :=
  allLeases.find? fun id => (s.lease id).live && (s.lease id).holder == p && (s.lease id).range.contains x

/-- The 256-byte unit that contains an address (R72). -/
def unitOf (x : Word) : AddrRange := { start := x &&& 0xFFFFFF00#32, exp := 8#6 }

/-- R72: the summary of others' live leases over a unit: 0 NONE, 1 SHARED, 2 EXCLUSIVE. -/
def State.othersCode (s : State) (p : PortId) (u : AddrRange) : Nat :=
  let others := allLeases.filter fun id =>
    (s.lease id).live && (s.lease id).holder != p && (s.lease id).range.overlaps u
  if others.any fun id => (s.lease id).mode == .exclusive then 2 else if others.isEmpty then 0 else 1

/-- RESULT_DATA0 of LOOKUP (Table 10-6). -/
def State.lookupWord (s : State) (p : PortId) (x : Word) : Word :=
  let u := unitOf x
  (match s.lookupSlot p x with
    | none => 0#32
    | some r =>
      place r.val 0 5 ||| place 1 5 1 ||| place (s.region r).state.code 6 2 ||| place (s.region r).policy.code 8 2 |||
      place ((s.region r).rights[p]).code 10 2) |||
  (match s.ownLease p x with
    | none => 0#32
    | some id => place 1 12 1 ||| place id.val 13 6 ||| place (s.lease id).generation.toNat 20 4) |||
  place (s.othersCode p u) 24 2 |||
  place (s.le.waiters.countP fun w => w.range.overlaps u) 26 5

/-- LOOKUP (R72): a summary, with no change. -/
def State.leLookup (p : PortId) (w1 : Word) (s : State) : State × Reply :=
  (s, { Reply.plain .ok with data := #v[s.lookupWord p w1, 0#32, 0#32] })

/-! ## Taking a command (R59, R145) -/

/-- The lease fields a refusal by the common check NOT_LIVE carries: those of the lease the command names (log 14). -/
def State.namedLease (s : State) (w0 : Word) : Option (LeaseId × Generation) :=
  match reqCode w0 with
  | 2 => some (reqLease w0, reqGeneration w0)
  | 3 => some (reqLease w0, reqGeneration w0)
  | 4 => some (reqLease w0, reqGeneration w0)
  | 5 => some (reqLease w0, reqGeneration w0)
  | 7 => some (reqLease w0, (s.lease (reqLease w0)).generation)
  | _ => none

/-- R59: LE takes the command in the REQUEST words of port `p`: NOT_LIVE while the map is BOOT, BAD_COMMAND for an
undefined code, and otherwise the command. -/
def State.leCommand (p : PortId) (s : State) : State × Reply :=
  let w0 := (s.port p).request[0]
  let w1 := (s.port p).request[1]
  let w2 := (s.port p).request[2]
  if s.mu.map = .boot then (s, { Reply.plain .notLive with lease := s.namedLease w0 })
  else
    match reqCode w0 with
    | 1 => s.leClaim p w0 w1 w2
    | 2 => s.leRenew p w0
    | 3 => s.leRelease p w0
    | 4 => s.leUpgrade p w0
    | 5 => s.leDowngrade p w0
    | 6 => s.leWithdraw p w0
    | 7 => s.leQuery w0
    | 8 => s.leLookup p w1
    | _ => (s, Reply.plain .badCommand)

/-- R145 step 3, R146: PTC writes the reply into the mailbox; an unread result is lost and OVERRUN is set. -/
def State.placeReply (p : PortId) (r : Reply) (s : State) : State :=
  s.updPort p fun q =>
    { q with mailbox := { result := resultWord r, data := r.data, valid := true
                          overrun := q.mailbox.overrun || q.mailbox.valid } }

/-- R145: a write at SUBMIT: LE takes the command, the reply is placed, the write is answered, and an EARLY_REVOKED then
counts a fault of the requester (R160). -/
def State.submit (p : PortId) (s : State) : State :=
  let (s1, r) := s.leCommand p
  let s2 := (s1.placeReply p r).answer p .writeDone
  if r.code = .earlyRevoked then s2.countFault p else s2

end Sys2Proof.Machine
end

