-- ==== Sys2Proof/Machine/Access.lean ====
section
/-! DEFINITION. An access from its arrival on: the judgement (R26 to R40), refusal (R42 to R44), acceptance (R40), and the
command window (R143 to R150, R186). -/

namespace Sys2Proof.Machine

/-! ## The command window -/

/-- What stands at a word offset of the window (Table 10-2). -/
inductive WindowSlot
  | request (k : Fin 4)
  | submit
  | result
  | resultData (k : Fin 3)
  | portStatus
  | faultReason
  | faultAddr
  | notice
  | other
  deriving DecidableEq, Repr

/-- R186: the slot an address inside the window reaches. -/
def MapUnit.windowSlot (m : MapUnit) (x : Word) : WindowSlot :=
  match (x - m.windowBase).toNat / 4 with
  | 0 => .request 0
  | 1 => .request 1
  | 2 => .request 2
  | 3 => .request 3
  | 4 => .submit
  | 8 => .result
  | 9 => .resultData 0
  | 10 => .resultData 1
  | 11 => .resultData 2
  | 12 => .portStatus
  | 13 => .faultReason
  | 14 => .faultAddr
  | 15 => .notice
  | _ => .other

/-- R30: the offsets a barred requester may read. -/
def WindowSlot.barredMayRead : WindowSlot → Bool
  | .portStatus => true
  | .faultReason => true
  | .faultAddr => true
  | .notice => true
  | .request _ => false
  | .submit => false
  | .result => false
  | .resultData _ => false
  | .other => false

/-- Tags 0 to 3, lowest first. -/
def allTags : List Tag := [0, 1, 2, 3]

/-- R150: the lowest tag under which the board holds a claim notice. -/
def Port.lowestNotice (q : Port) : Option Tag := allTags.find? fun t => (q.board[t]).isSome

/-- R150: the lowest REVOKED lease of a requester. -/
def State.lowestTombstone (s : State) (p : PortId) : Option LeaseId :=
  allLeases.find? fun id => (s.lease id).state == .revoked && (s.lease id).holder == p

/-- The NOTICE word of port `p` (R150): a claim notice, else a revocation notice, else NONE, whose other fields read 0 (the
model's choice, log 31). -/
def State.noticeWord (s : State) (p : PortId) : Word :=
  match (s.port p).lowestNotice with
  | some t =>
    match (s.port p).board[t] with
    | some n => claimNoticeWord t n
    | none => 0#32
  | none =>
    if (s.port p).tombstones = 0 then 0#32
    else
      match s.lowestTombstone p with
      | some id => revocationWord id (s.lease id)
      | none => 0#32

/-- The 32-bit word a window read finds at a slot (Table 7-2, Table 10-2). The REQUEST words are returned as last written,
their reserved bits included (the model's choice, log 29). -/
def State.windowWord (s : State) (p : PortId) : WindowSlot → Word
  | .request k => (s.port p).request[k]
  | .submit => 0#32
  | .result => (s.port p).mailbox.result ||| placeBit (s.port p).mailbox.valid 31
  | .resultData k => (s.port p).mailbox.data[k]
  | .portStatus => portStatusWord p (s.port p)
  | .faultReason => lastFaultWord (s.port p).lastFault
  | .faultAddr => (s.port p).lastFault.addr
  | .notice => s.noticeWord p
  | .other => 0#32

/-- R150: a NOTICE read removes the claim notice it returns. -/
def Port.takeNotice (q : Port) : Port :=
  match q.lowestNotice with
  | some t => { q with board := q.board.set t none }
  | none => q

/-- The effect of a window read (R146, R147, R150): made once, by any read that names a byte of the word. -/
def State.windowRead (p : PortId) (w : WindowSlot) (s : State) : State :=
  match w with
  | .result => s.updPort p fun q => { q with mailbox := { q.mailbox with valid := false } }
  | .portStatus => s.updPort p fun q => { q with mailbox := { q.mailbox with overrun := false } }
  | .notice => s.updPort p Port.takeNotice
  | .request _ => s
  | .submit => s
  | .resultData _ => s
  | .faultReason => s
  | .faultAddr => s
  | .other => s

/-- R144: the named bytes of a REQUEST word are replaced. -/
def State.writeRequest (p : PortId) (k : Fin 4) (be : BitVec 4) (data : Word) (s : State) : State :=
  s.updPort p fun q => { q with request := q.request.set k (mergeBytes q.request[k] data be) }

/-- R143: PTC answers a window access: a read with the named bytes of the word as it stood, a write with completion. -/
def State.windowAccess (p : PortId) (a : Presentation) (s : State) : State :=
  let w := s.mu.windowSlot a.addr
  match a.dir with
  | .read => (s.windowRead p w).answer p (.readData (s.windowWord p w &&& laneMask a.be))
  | .write =>
    match w with
    | .request k => (s.writeRequest p k a.be a.data).answer p .writeDone
    | .submit => s.submit p
    | .result => s.answer p .writeDone
    | .resultData _ => s.answer p .writeDone
    | .portStatus => s.answer p .writeDone
    | .faultReason => s.answer p .writeDone
    | .faultAddr => s.answer p .writeDone
    | .notice => s.answer p .writeDone
    | .other => s.answer p .writeDone

/-! ## The judgement (R28, R29) -/

/-- The outcome of a judgement: refused, a window access, or accepted with the region, the authorising lease and the
cycle fields the access carries from then on. -/
inductive Verdict
  | refuse (reason : FaultReason)
  | window
  | accept (region : Option RegionId) (lease : Option (LeaseId × Generation)) (cycle : CycleFields)
  deriving DecidableEq, Repr

/-- R30: the exception of check 2: an aligned window read of legal width at PORT_STATUS, LAST_FAULT or NOTICE. -/
def State.barredException (s : State) (a : Presentation) : Bool :=
  a.dir == .read && naturallyAligned a && s.mu.window.contains a.addr && (s.mu.windowSlot a.addr).barredMayRead

/-- R36: the rights allow the direction. -/
def Rights.allow : Rights → Direction → Bool
  | .none, _ => false
  | .read, .read => true
  | .read, .write => false
  | .readWrite, _ => true

/-- R37: the policy needs a lease for the direction. -/
def Policy.needsLease : Policy → Direction → Bool
  | .openAccess, _ => false
  | .writeLeased, .read => false
  | .writeLeased, .write => true
  | .allLeased, _ => true

/-- R38: the mode is sufficient for the direction. -/
def Mode.sufficient : Mode → Direction → Bool
  | .exclusive, _ => true
  | .shared, .read => true
  | .shared, .write => false

/-- R38: the covering lease of a requester for an address and a direction. -/
def State.cover (s : State) (p : PortId) (dir : Direction) (x : Word) : Option LeaseId :=
  allLeases.find? fun id =>
    (s.lease id).state == .held && (s.lease id).holder == p && (s.lease id).range.contains x &&
    (s.lease id).mode.sufficient dir

/-- Check 11 (R39) and acceptance (R40): the target is looked at last. -/
def State.checkTarget (s : State) (region : Option RegionId) (lease : Option (LeaseId × Generation))
    (cycle : CycleFields) : Verdict :=
  if (s.target cycle.target).state = .faulted then .refuse .targetFaulted else .accept region lease cycle

/-- Checks 9 to 11 (R36 to R39) in the region an address decoded to. -/
def State.judgeRegion (s : State) (p : PortId) (a : Presentation) (r : RegionId) : Verdict :=
  let d := s.region r
  if (d.rights[p]).allow a.dir = false then .refuse .rights
  else if d.policy.needsLease a.dir then
    match s.cover p a.dir a.addr with
    | none => .refuse .noLease
    | some id => s.checkTarget (some r) (some (id, (s.lease id).generation)) d.cycle
  else s.checkTarget (some r) none d.cycle

/-- R29, Table 2-1: the judgement of an access, checks 1 to 11 in order. -/
def State.judge (s : State) (p : PortId) (a : Presentation) : Verdict :=
  let q := (s.port p).requester.state
  if q = .offline then .refuse .portOffline
  else if (q = .quarantined ∨ q = .lockedOut) ∧ s.barredException a = false then .refuse .portBarred
  else if s.mgp.unit = .softResetting then .refuse .resetting
  else if naturallyAligned a = false then .refuse .align
  else
    match s.mu.decode p a.dir a.addr with
    | .window => .window
    | .mapBoot => .refuse .mapBoot
    | .bootRead => s.checkTarget none none bootCycle
    | .noRegion => .refuse .noRegion
    | .inactive _ => .refuse .regionInactive
    | .region r => s.judgeRegion p a r

/-- R43: the reasons that count a fault of the requester. -/
def FaultReason.counted : FaultReason → Bool
  | .align => true
  | .noRegion => true
  | .rights => true
  | .noLease => true
  | .regionInactive => false
  | .portOffline => false
  | .portBarred => false
  | .resetting => false
  | .mapBoot => false
  | .targetFaulted => false
  | .targetTimeout => false

/-- R42 to R44: a refusal: the bus error, the last-fault record, and the fault count of a counted reason. -/
def State.refuse (p : PortId) (a : Presentation) (reason : FaultReason) (s : State) : State :=
  let s1 := s.updPort p fun q =>
    { q with answer := some .busError
             lastFault := { reason := some reason, addr := a.addr, dir := a.dir, width := enabledCount a.be } }
  if reason.counted then s1.countFault p else s1

/-- R40: acceptance: the region count, then the lease's in-flight count, and the port access record to WAITING_BUS. A
read leaves the record's write data as it was (log 15). -/
def State.accept (p : PortId) (a : Presentation) (region : Option RegionId) (lease : Option (LeaseId × Generation))
    (cycle : CycleFields) (s : State) : State :=
  let s1 := match region with
    | none => s
    | some r => s.updRegion r fun d => { d with inFlight := d.inFlight + 1 }
  let s2 := match lease with
    | none => s1
    | some (id, _) => s1.putLease id { s1.lease id with inFlight := true }
  s2.updPort p fun q =>
    { q with
      access :=
        { state := .waitingBus, addr := a.addr, dir := a.dir, width := enabledCount a.be
          data := if a.dir = .write then a.data &&& laneMask a.be else q.access.data
          region := region, lease := lease, cycle := cycle, cyclesDone := 0, orphaned := false }
      answer := none }

/-- R29: the judgement is carried out. -/
def State.carryOut (p : PortId) (a : Presentation) (s : State) : State :=
  match s.judge p a with
  | .refuse reason => s.refuse p a reason
  | .window => s.windowAccess p a
  | .accept region lease cycle => s.accept p a region lease cycle

/-- R26: PTC takes an access presented on the port: its record is IDLE and RQRST is deasserted. -/
def State.canTake (s : State) (p : PortId) : Bool :=
  (s.port p).access.state == .idle && !(s.port p).requester.inReset

/-- R26, R153: PTC takes the presentation standing at port `p`, where one stands and it can, and it is judged. -/
def State.takeStanding (p : PortId) (s : State) : State :=
  match (s.port p).standing, s.canTake p with
  | some a, true => (s.updPort p fun q => { q with standing := none }).carryOut p a
  | _, _ => s

/-- R26: requester `p` presents an access. What stands at the port is taken first, where PTC can take it. Then the access
is taken and judged where PTC can take it, and stands on the requester bus where it cannot, unless another one still stands
there (log 8). -/
def State.present (p : PortId) (a : Presentation) (s : State) : State :=
  let s1 := s.takeStanding p
  if s1.canTake p then s1.carryOut p a else s1.updPort p fun q => { q with standing := some (q.standing.getD a) }

/-- The presentation of an access at a word offset of the window, with these enables and data (log 26). -/
def State.windowPresentation (s : State) (dir : Direction) (off : Nat) (be : BitVec 4) (data : Word) : Presentation :=
  { addr := s.mu.windowBase + BitVec.ofNat 32 (off + lowestLane be), dir := dir, be := be, data := data }

end Sys2Proof.Machine
end

