-- ==== Sys2Proof/Machine/Bus.lean ====
section
/-! DEFINITION. The Bus Sequencer (R118 to R138): the arbiter's decision, device cycles, their completion and timeout, and
the start of a soft reset. -/

namespace Sys2Proof.Machine

/-- R119: port `p` waits for the bus. -/
def State.waits (s : State) (p : PortId) : Bool := (s.port p).access.state == .waitingBus

/-- R120: the highest bus priority among the waiting ports. -/
def State.topLevel (s : State) : Option Priority :=
  ([3, 2, 1, 0] : List Priority).find? fun l => allPorts.any fun p => s.waits p && (s.port p).requester.busPriority == l

/-- Table 6-1: the order of search after a pointer. -/
def searchOrder (p : PortId) : List PortId := [p + 1, p + 2, p + 3, p]

/-- R120: the level and port the arbiter picks. -/
def State.pick (s : State) : Option (Priority × PortId) :=
  match s.topLevel with
  | none => none
  | some l =>
    match (searchOrder s.bsq.pointers[l]).find? fun p => s.waits p && (s.port p).requester.busPriority == l with
    | none => none
    | some p => some (l, p)

/-- R127: the timeout period N. -/
def timeoutPeriod (busTimeout : BitVec 8) : Nat := (busTimeout.toNat + 1) * 16

/-- R124, R127: the access of port `p` starts a device cycle: its periods count from 0 ended, and the bus timeout
counter is loaded. -/
def State.startCycle (p : PortId) (readData : Word) (s : State) : State :=
  s.setHold (some { port := p, periods := 0, timeout := timeoutPeriod s.bsq.busTimeout, readData := readData })

/-- R120 to R122: a grant decision, where the bus is FREE and a port waits; otherwise none is made. -/
def State.grantDecision (s : State) : State :=
  if s.bsq.hold.isSome then s
  else
    match s.pick with
    | none => s
    | some (l, p) =>
      let s1 : State := { s with bsq := { s.bsq with pointers := s.bsq.pointers.set l p } }
      if (s.target (s.port p).access.cycle.target).state = .faulted then s1.endAccess p (.failed .targetFaulted)
      else (s1.updAccess p fun a => { a with state := .onBus }).startCycle p 0#32

/-- R123 of a port access record: the bytes and the first address of its cycle in progress. -/
def AccessRecord.cycleBytes (a : AccessRecord) : Nat := Sys2Proof.Machine.cycleBytes a.width a.cycle.width

def AccessRecord.cycleAddr (a : AccessRecord) : Word :=
  Sys2Proof.Machine.cycleAddr a.addr a.width a.cycle.width a.cyclesDone

/-- R126: the cycle on the bus completes; `data` holds the bytes a read takes. The next cycle starts after the check of
R125, or the access ends. -/
def State.cycleComplete (data : Word) (s : State) : State :=
  match s.bsq.hold with
  | none => s
  | some h =>
    let a := (s.port h.port).access
    let got := if a.dir = .read then gatherRead h.readData data a.cycleAddr a.cycleBytes else h.readData
    let s1 := (s.updTarget a.cycle.target fun t => { t with consecutive := 0 }).updAccess h.port fun a =>
      { a with cyclesDone := a.cyclesDone + 1 }
    if cycleCount a.width a.cycle.width ≤ a.cyclesDone + 1 then s1.endAccess h.port (.completed got)
    else if (s1.target a.cycle.target).state = .faulted then s1.endAccess h.port (.failed .targetFaulted)
    else s1.startCycle h.port got

/-- R130, steps 1 to 3: a target record at a timeout. -/
def Target.timedOut (t : Target) (x : Word) : Target :=
  { t with consecutive := min 15 (t.consecutive + 1), total := min 65535 (t.total + 1), lastTimeout := x }

/-- R130: the target record is updated and TARGET_TIMEOUT raised; at its limit the target becomes FAULTED and
TARGET_FAULTED is raised. -/
def State.countTimeout (t : TargetId) (x : Word) (s : State) : State :=
  let s1 := (s.updTarget t fun r => r.timedOut x).raise .targetTimeout
  let r := s1.target t
  if 1 ≤ r.limit ∧ r.limit ≤ r.consecutive then
    (s1.updTarget t fun r => { r with state := .faulted }).raise .targetFaulted
  else s1

/-- R128 to R130: the cycle on the bus times out, and its access ends TARGET_TIMEOUT. An INTERNAL cycle never does. -/
def State.cycleTimeout (s : State) : State :=
  match s.bsq.hold with
  | none => s
  | some h =>
    let a := (s.port h.port).access
    if a.cycle.ready = .internal then s
    else (s.countTimeout a.cycle.target a.cycleAddr).endAccess h.port (.failed .targetTimeout)

/-- The end of one BCLK period, with DRDY and the data as sampled there (R124, R128): the period just ended is the cycle's
(periods + 1)-th. -/
def State.bclkPeriod (ready : Bool) (data : Word) (s : State) : State :=
  match s.bsq.hold with
  | none => s
  | some h =>
    let a := (s.port h.port).access
    let k := h.periods + 1
    let due := decide (a.cycle.waits.toNat + 1 ≤ k)
    if due && (a.cycle.ready == .internal || ready) then s.cycleComplete data
    else if a.cycle.ready == .external && decide (h.timeout ≤ k) then s.cycleTimeout
    else s.setHold (some { h with periods := k })

/-! ## The shared device bus, as views (R118, R124) -/

/-- The target whose select is asserted. -/
def State.selected (s : State) : Option TargetId :=
  s.bsq.hold.map fun h => (s.port h.port).access.cycle.target

/-- The address, direction and, for a write, the bytes the cycle in progress presents, in the lanes of their addresses. -/
def State.deviceBus (s : State) : Option (Word × Direction × Word) :=
  s.bsq.hold.map fun h =>
    let a := (s.port h.port).access
    (a.cycleAddr, a.dir,
      if a.dir = .write then a.data &&& laneMask (transferEnables a.cycleAddr a.cycleBytes) else 0#32)

/-! ## The start of a soft reset (R138, R180) -/

/-- The element of a list at an index, and the others in order. -/
def pullOut {α : Type} : Nat → List α → List α
  | _, [] => []
  | 0, x :: xs => x :: xs
  | n + 1, x :: xs =>
    match pullOut n xs with
    | [] => [x]
    | y :: ys => y :: x :: ys

/-- The order a free value gives a list: at each place one of those left. A list of one element has one order. -/
def orderBy {α : Type} : Nat → Nat → List α → List α
  | 0, _, xs => xs
  | _ + 1, _, [] => []
  | _ + 1, _, [x] => [x]
  | fuel + 1, k, xs =>
    match pullOut (k % xs.length) xs with
    | [] => []
    | y :: ys => y :: orderBy fuel (k / xs.length) ys

/-- The waiting ports, in the order their accesses are ended at the start of a soft reset: a free value (log 10). -/
def State.resetOrder (s : State) : List PortId :=
  orderBy 4 (Config.resetEndOrder s.freeDraws) (allPorts.filter fun p => s.waits p)

/-- R138, R180: the start of a soft reset: the unit is RUNNING, every waiting access ends RESETTING, and BSQ reports where
no access holds the bus. -/
def State.startSoftReset (s : State) : State :=
  let s1 : State := { s with mgp := { s.mgp with unit := .softResetting }, freeDraws := s.freeDraws + 1 }
  (s.resetOrder.foldl (fun s p => s.endAccess p (.failed .resetting)) s1).softResetReport

end Sys2Proof.Machine
end

