-- ==== Sys2Proof/Machine/HostOps.lean ====
section
/-! DEFINITION. The host commands at the blocks that own them (Table 9-2), and the unit that takes them (R178). Each
command function is called with the unit IDLE and the argument it captured, and answers the state after its first step. -/

namespace Sys2Proof.Machine

/-! ## Arguments (R189) -/

/-- HOST_ARG [7:0]. -/
def argNumber (arg : BitVec 12) : Nat := (arg.extractLsb' 0 8).toNat

/-- R189: the number HOST_ARG [7:0] names among `n`, or none above the range. -/
def argFin (arg : BitVec 12) (n : Nat) : Option (Fin n) :=
  if h : argNumber arg < n then some ⟨argNumber arg, h⟩ else none

/-- HOST_ARG [11:8], the generation of LEASE_REVOKE. -/
def argGeneration (arg : BitVec 12) : Generation := arg.extractLsb' 8 4

/-! ## Commands at the Map Unit -/

/-- GO_LIVE (R2): the map becomes LIVE, and the divider counter is loaded anew (R103). -/
def State.hostGoLive (s : State) : State :=
  if s.mu.map = .live then s.finish 1#4 .wrongState
  else
    State.finish 1#4 .ok
      { s with mu := { s.mu with map := .live }, divider := tickPeriod s.mgp.tickDiv }

/-- R7 check 1: the staged group may be stored. -/
def stagedGroupGood (g : Group) : Bool :=
  !g.valid || (decide (16 ≤ g.exp.toNat) && decide (g.exp.toNat ≤ 32) && g.extent.aligned)

/-- R7 check 3: the staged extent overlaps the extent of another VALID group. -/
def MapUnit.groupOverlaps (m : MapUnit) (g : GroupId) (staged : Group) : Bool :=
  staged.valid && allGroups.any fun h => h != g && (m.groups[h]).valid && (m.groups[h]).extent.overlaps staged.extent

/-- R7: the result of a GROUP_SET of one group. -/
def State.checkGroupSet (s : State) (g : GroupId) : HostResult :=
  let staged := stagedGroup s.mgp.groupStage
  if stagedGroupGood staged = false then .badArg
  else if (slotsOf g).any fun r => (s.region r).state != .invalid then .inUse
  else if s.mu.groupOverlaps g staged then .overlap
  else .ok

/-- GROUP_SET (R7). -/
def State.hostGroupSet (arg : BitVec 12) (s : State) : State :=
  match argFin arg 4 with
  | none => s.finish 2#4 .badArg
  | some g =>
    let result := s.checkGroupSet g
    let s1 : State :=
      if result = .ok then { s with mu := { s.mu with groups := s.mu.groups.set g (stagedGroup s.mgp.groupStage) } }
      else s
    s1.finish 2#4 result

/-- R17 check 5: the staged descriptor differs from the installed one in a field that a slot in use must keep. -/
def fixedFieldsDiffer (staged installed : Region) : Bool :=
  staged.offset != installed.offset || staged.exp != installed.exp ||
  staged.cycle.target != installed.cycle.target || staged.cycle.width != installed.cycle.width ||
  staged.rights != installed.rights || staged.policy != installed.policy || staged.term != installed.term

/-- R17: the staged descriptor where it may be installed in the slot, or the result that refuses it. -/
def State.checkCommit (s : State) (r : RegionId) : Except HostResult Region :=
  let group := s.mu.groups[groupOf r]
  let installed := s.region r
  if installed.state = .retiring then .error .wrongState
  else if installed.state = .invalid ∧ group.valid = false then .error .wrongState
  else
    match stagedRegion s.mgp.regionStage[0] s.mgp.regionStage[1] s.mgp.regionStage[2] with
    | none => .error .badArg
    | some staged =>
      if fitsGroup group staged = false then .error .badArg
      else if installed.state ≠ .invalid ∧ s.inUse r = true ∧ fixedFieldsDiffer staged installed = true then
        .error .inUse
      else if s.shadowsLease r (staged.extent group) then .error .shadowsLease
      else .ok staged

/-- R18, R19: a staged descriptor installed in a slot: the in-flight count stays, an INVALID slot becomes ACTIVE. -/
def installed (old staged : Region) : Region :=
  { staged with state := if old.state = .invalid then .active else old.state, inFlight := old.inFlight }

/-- REGION_COMMIT (R17 to R19). -/
def State.hostRegionCommit (arg : BitVec 12) (s : State) : State :=
  match argFin arg 32 with
  | none => s.finish 3#4 .badArg
  | some r =>
    match s.checkCommit r with
    | .error result => s.finish 3#4 result
    | .ok staged => (s.updRegion r fun old => installed old staged).finish 3#4 .ok

/-- REGION_SUSPEND (R20). -/
def State.hostRegionSuspend (arg : BitVec 12) (s : State) : State :=
  match argFin arg 32 with
  | none => s.finish 4#4 .badArg
  | some r =>
    if (s.region r).state = .active then (s.updRegion r fun d => { d with state := .suspended }).finish 4#4 .ok
    else s.finish 4#4 .wrongState

/-- MU asks LE for a grant scan, taken there as an event of its own (R21, R95). -/
def State.askScan (s : State) : State := { s with le := { s.le with resumeScans := s.le.resumeScans + 1 } }

/-- REGION_RESUME (R21). -/
def State.hostRegionResume (arg : BitVec 12) (s : State) : State :=
  match argFin arg 32 with
  | none => s.finish 5#4 .badArg
  | some r =>
    if (s.region r).state = .suspended then
      ((s.updRegion r fun d => { d with state := .active }).askScan).finish 5#4 .ok
    else s.finish 5#4 .wrongState

/-- R95: LE takes the scan that a REGION_RESUME asked for; where none is asked for, nothing happens. -/
def State.resumeScan (s : State) : State :=
  if s.le.resumeScans = 0 then s
  else State.grantScan { s with le := { s.le with resumeScans := s.le.resumeScans - 1 } }

/-- R22, R90: LE takes the retire request of a slot. Its scan is made under the condition of R22 (log 28). -/
def State.retireRequest (r : RegionId) (s : State) : State :=
  s.settle ((s.revokeAll .regionRetired fun l => l.region == r).dropWaiters (fun w => w.region == r) .regionGone)

/-- REGION_RETIRE (R22, R23). -/
def State.hostRegionRetire (arg : BitVec 12) (s : State) : State :=
  match argFin arg 32 with
  | none => s.finish 6#4 .badArg
  | some r =>
    if (s.region r).state = .active ∨ (s.region r).state = .suspended then
      let s1 := s.updRegion r fun d => { d with state := .retiring }
      let s2 : State := { s1 with mgp := { s1.mgp with unit := .retiring r } }
      (s2.retireRequest r).retireTest r
    else s.finish 6#4 .wrongState

/-! ## Commands at the Lease Engine -/

/-- LEASE_REVOKE (R78). -/
def State.hostLeaseRevoke (arg : BitVec 12) (s : State) : State :=
  match argFin arg 64 with
  | none => s.finish 7#4 .badArg
  | some id =>
    if (s.lease id).generation ≠ argGeneration arg ∨ (s.lease id).state ≠ .held then s.finish 7#4 .notHeld
    else (s.settle (s.revoke .host id)).finish 7#4 .ok

/-- R79: a tombstone of requester `p`. -/
def State.tombstoneOf (s : State) (p : PortId) (id : LeaseId) : Bool :=
  (s.lease id).state == .revoked && (s.lease id).holder == p

/-- R79: LE frees every tombstone of requester `p`. -/
def State.freeTombstones (p : PortId) (s : State) : State :=
  allLeases.foldl (fun s id => if s.tombstoneOf p id then s.freeLease id else s) s

/-- PURGE (R79). -/
def State.hostPurge (arg : BitVec 12) (s : State) : State :=
  match argFin arg 4 with
  | none => s.finish 11#4 .badArg
  | some p =>
    let found := (allLeases.any fun id => s.tombstoneOf p id) || decide (0 < (s.port p).notices)
    let s1 := (s.freeTombstones p).updPort p fun q => { q with board := Vector.replicate 4 none }
    (s.settle s1).finish 11#4 (if found then .ok else .notHeld)

/-! ## Commands at the Port Controller -/

/-- Sets the state of a requester. -/
def State.setRequester (p : PortId) (x : RequesterState) (s : State) : State :=
  s.updRequester p fun q => { q with state := x }

/-- PORT_ONLINE (R154). -/
def State.hostPortOnline (arg : BitVec 12) (s : State) : State :=
  match argFin arg 4 with
  | none => s.finish 8#4 .badArg
  | some p =>
    if (s.port p).requester.state = .offline then (s.setRequester p .online).finish 8#4 .ok
    else s.finish 8#4 .wrongState

/-- PORT_OFFLINE (R155). -/
def State.hostPortOffline (arg : BitVec 12) (s : State) : State :=
  match argFin arg 4 with
  | none => s.finish 9#4 .badArg
  | some p =>
    if (s.port p).requester.state = .online ∨ (s.port p).requester.state = .quarantined then
      (((s.setRequester p .offline).clearRequest p).clearPort p).finish 9#4 .ok
    else s.finish 9#4 .wrongState

/-- PORT_RESTORE (R166). -/
def State.hostPortRestore (arg : BitVec 12) (s : State) : State :=
  match argFin arg 4 with
  | none => s.finish 10#4 .badArg
  | some p =>
    if (s.port p).requester.state = .quarantined then
      (s.updRequester p fun q => { q with state := .online, faults := 0 }).finish 10#4 .ok
    else s.finish 10#4 .wrongState

/-! ## Command at the Bus Sequencer -/

/-- TARGET_CLEAR (R134). -/
def State.hostTargetClear (arg : BitVec 12) (s : State) : State :=
  match argFin arg 8 with
  | none => s.finish 12#4 .badArg
  | some t => (s.updTarget t fun r => { r with state := .online, consecutive := 0 }).finish 12#4 .ok

/-! ## The host command unit (R178) -/

/-- R178, R189: the command of a code, taken with its captured argument. -/
def State.dispatch (code : BitVec 4) (arg : BitVec 12) (s : State) : State :=
  match code.toNat with
  | 1 => s.hostGoLive
  | 2 => s.hostGroupSet arg
  | 3 => s.hostRegionCommit arg
  | 4 => s.hostRegionSuspend arg
  | 5 => s.hostRegionResume arg
  | 6 => s.hostRegionRetire arg
  | 7 => s.hostLeaseRevoke arg
  | 8 => s.hostPortOnline arg
  | 9 => s.hostPortOffline arg
  | 10 => s.hostPortRestore arg
  | 11 => s.hostPurge arg
  | 12 => s.hostTargetClear arg
  | 13 => s.startSoftReset
  | _ => s.finish code .badArg

/-- R178: an applied write of a code to HOST_CMD. -/
def State.hostCommand (code : BitVec 4) (s : State) : State :=
  if s.mgp.unit = .idle then
    State.dispatch code s.mgp.hostArg { s with mgp := { s.mgp with hostCmd := code } }
  else s.raise .cmdReject

end Sys2Proof.Machine
end

