-- ==== Sys2Proof/Machine/Registers.lean ====
section
/-! DEFINITION. The management registers (R175 to R177, R182, R183, R189): what a read captures and what an applied write
does. -/

namespace Sys2Proof.Machine

/-! ## Register values -/

/-- CRC_CONTROL. -/
def crcControlWord (c : CrcConfig) : Word := placeBit c.enable 0 ||| place (if c.poly = .p31 then 0 else 1) 1 2

/-- HOST_STATUS. -/
def hostStatusWord (h : HostStatus) : Word := place h.code.toNat 0 4 ||| place h.result.code 8 3

/-- PORT_CONFIGn, a view of the requester record (R158). -/
def portConfigWord (q : Requester) : Word := place q.busPriority.val 0 2 ||| place q.claimCap.val 4 2

/-- FAULT_CONFIG (R159). -/
def faultConfigWord (c : PortController) : Word := place c.threshold 0 5 ||| place c.limit 8 3

/-- A TARGET_LIMIT register: the limits of four targets from `base` up (R132). -/
def State.targetLimitWord (s : State) (t0 t1 t2 t3 : TargetId) : Word :=
  place (s.target t0).limit 0 4 ||| place (s.target t1).limit 4 4 ||| place (s.target t2).limit 8 4 |||
  place (s.target t3).limit 12 4

/-- The value of a register as it stands (Table 10-9); a number that names none reads 0. -/
def State.readRegister (s : State) (n : BitVec 7) : Word :=
  match n.toNat with
  | 0 => Config.idValue
  | 1 => crcControlWord s.mgp.crc
  | 2 => mapStatusWord s
  | 3 => s.mu.windowBase
  | 4 => s.mgp.tickDiv.setWidth 32
  | 5 => s.bsq.busTimeout.setWidth 32
  | 6 => s.mgp.slotsLowMark.setWidth 32
  | 7 => s.mgp.flags.setWidth 32
  | 8 => s.mgp.enables.setWidth 32
  | 9 => s.mgp.hostCmd.setWidth 32
  | 10 => s.mgp.hostArg.setWidth 32
  | 11 => hostStatusWord s.mgp.hostStatus
  | 12 => s.mgp.groupStage
  | 13 => s.mgp.regionStage[0]
  | 14 => s.mgp.regionStage[1]
  | 15 => s.mgp.regionStage[2]
  | 16 => 0#32
  | 17 => s.mgp.tableSelect.setWidth 32
  | 18 => s.mgp.tableIndex.setWidth 32
  | 19 => s.mgp.tableData[0]
  | 20 => s.mgp.tableData[1]
  | 21 => s.mgp.tableData[2]
  | 22 => s.mgp.tableData[3]
  | 23 => portConfigWord (s.port 0).requester
  | 24 => portConfigWord (s.port 1).requester
  | 25 => portConfigWord (s.port 2).requester
  | 26 => portConfigWord (s.port 3).requester
  | 27 => faultConfigWord s.ptc
  | 28 => s.targetLimitWord 0 1 2 3
  | 29 => s.targetLimitWord 4 5 6 7
  | _ => 0#32

/-! ## Table snapshots (R177, R190) -/

/-- The element of a table at an index, or none past its end. -/
def atIndex {α : Type} {n : Nat} (v : Vector α n) (i : Nat) : Option α := if h : i < n then some v[i] else none

/-- R177: the record of the selected table at an index, as a snapshot. -/
def State.snapshot (s : State) (table : BitVec 3) (index : BitVec 8) : Vector Word 4 :=
  let i := index.toNat
  (match table.toNat with
    | 0 => (atIndex s.mu.groups i).map groupSnapshot
    | 1 => (atIndex s.mu.regions i).map regionSnapshot
    | 2 => (atIndex s.le.leases i).map leaseSnapshot
    | 3 => (s.le.waiters[i]?).map waiterSnapshot
    | 4 => if h : i < 4 then some (portSnapshot ⟨i, h⟩ (s.port ⟨i, h⟩)) else none
    | 5 => (atIndex s.bsq.targets i).map targetSnapshot
    | _ => none).getD invalidSnapshot

/-! ## Applied writes with further effects -/

/-- CRC_CONTROL (R174): an undefined polynomial discards the write whole. -/
def State.writeCrcControl (v : Word) (s : State) : State :=
  match field v 1 2 with
  | 0 => { s with mgp := { s.mgp with crc := { enable := v.getLsbD 0, poly := .p31 } } }
  | 1 => { s with mgp := { s.mgp with crc := { enable := v.getLsbD 0, poly := .p9B } } }
  | _ => s

/-- WINDOW_BASE (R4): applied in BOOT, discarded in LIVE. -/
def State.writeWindowBase (v : Word) (s : State) : State :=
  if s.mu.map = .boot then { s with mu := { s.mu with windowBase := v &&& 0xFFFFF000#32 } } else s

/-- EVENT_FLAGS (R182): each flag whose bit is 1 is cleared. -/
def State.writeEventFlags (v : Word) (s : State) : State :=
  { s with mgp := { s.mgp with flags := s.mgp.flags &&& ~~~(v.extractLsb' 0 10) } }

/-- EVENT_ENABLE (R183). -/
def State.writeEventEnable (v : Word) (s : State) : State :=
  { s with mgp := { s.mgp with enables := v.extractLsb' 0 10 } }

/-- TABLE_INDEX (R177): the index is stored and the snapshot taken. -/
def State.writeTableIndex (v : Word) (s : State) : State :=
  { s with mgp := { s.mgp with tableIndex := v.extractLsb' 0 8
                               tableData := s.snapshot s.mgp.tableSelect (v.extractLsb' 0 8) } }

/-- R164: the requesters a FAULT_CONFIG write bars: those ONLINE at or above the threshold. -/
def State.atThreshold (s : State) (p : PortId) : Bool :=
  (s.port p).requester.state == .online && decide (s.ptc.threshold ≤ (s.port p).requester.faults)

/-- R164: a quarantine count above the limit is lowered to it. -/
def State.lowerQuarantine (p : PortId) (s : State) : State :=
  s.updRequester p fun q => { q with quarantines := min q.quarantines s.ptc.limit }

/-- FAULT_CONFIG (R159, R164): a field out of range discards the write whole; otherwise the values are in force, the
quarantine counts are lowered, every ONLINE requester at the threshold is barred, and LE takes their requests together
where there is any. -/
def State.writeFaultConfig (v : Word) (s : State) : State :=
  let t := field v 0 5
  let l := field v 8 3
  if 1 ≤ t ∧ t ≤ 16 ∧ 1 ≤ l then
    let s1 := allPorts.foldl (fun s p => s.lowerQuarantine p) { s with ptc := { s.ptc with threshold := t, limit := l } }
    if allPorts.any s1.atThreshold then
      (allPorts.foldl (fun s p => if s1.atThreshold p then s.enterBarring p else s) s1).barRequest s1.atThreshold
    else s1
  else s

/-- PORT_CONFIGn (R158). -/
def State.writePortConfig (p : PortId) (v : Word) (s : State) : State :=
  s.updRequester p fun q => { q with busPriority := (v.extractLsb' 0 2).toFin, claimCap := (v.extractLsb' 4 2).toFin }

/-- Sets the limit of one target. -/
def State.setLimit (t : TargetId) (n : Nat) (s : State) : State := s.updTarget t fun r => { r with limit := n }

/-- TARGET_LIMIT (R132): the four limits of a register. -/
def State.writeTargetLimit (t0 t1 t2 t3 : TargetId) (v : Word) (s : State) : State :=
  (((s.setLimit t0 (field v 0 4)).setLimit t1 (field v 4 4)).setLimit t2 (field v 8 4)).setLimit t3 (field v 12 4)

/-! ## A write frame applied (R175) -/

/-- R175, R189: an applied write of `v` to register number `n`. Reserved bits are dropped; read-only registers and numbers
that name no register discard the write. -/
def State.writeRegister (n : BitVec 7) (v : Word) (s : State) : State :=
  match n.toNat with
  | 1 => s.writeCrcControl v
  | 3 => s.writeWindowBase v
  | 4 => { s with mgp := { s.mgp with tickDiv := v.extractLsb' 0 16 } }
  | 5 => { s with bsq := { s.bsq with busTimeout := v.extractLsb' 0 8 } }
  | 6 => { s with mgp := { s.mgp with slotsLowMark := v.extractLsb' 0 6 } }
  | 7 => s.writeEventFlags v
  | 8 => s.writeEventEnable v
  | 9 => s.hostCommand (v.extractLsb' 0 4)
  | 10 => { s with mgp := { s.mgp with hostArg := v.extractLsb' 0 12 } }
  | 12 => { s with mgp := { s.mgp with groupStage := v &&& 0xFFFF3F01#32 } }
  | 13 => { s with mgp := { s.mgp with regionStage := s.mgp.regionStage.set 0 (v &&& 0xFFFFFF3F#32) } }
  | 14 => { s with mgp := { s.mgp with regionStage := s.mgp.regionStage.set 1 (v &&& 0xFF031F37#32) } }
  | 15 => { s with mgp := { s.mgp with regionStage := s.mgp.regionStage.set 2 (v &&& 0x01F7FFFF#32) } }
  | 17 => { s with mgp := { s.mgp with tableSelect := v.extractLsb' 0 3 } }
  | 18 => s.writeTableIndex v
  | 23 => s.writePortConfig 0 v
  | 24 => s.writePortConfig 1 v
  | 25 => s.writePortConfig 2 v
  | 26 => s.writePortConfig 3 v
  | 27 => s.writeFaultConfig v
  | 28 => s.writeTargetLimit 0 1 2 3 v
  | 29 => s.writeTargetLimit 4 5 6 7 v
  | _ => s

end Sys2Proof.Machine
end

