-- ==== Sys2Proof/Machine/Frame.lean ====
section
/-! DEFINITION. The SPI frame receiver (R172 to R174, R184): a low period of nCS, its bits, its check, and SDO as a view. -/

namespace Sys2Proof.Machine

/-! ## Bits and the CRC -/

/-- The number that bits spell, most significant first. -/
def bitsToNat (bits : List Bool) : Nat := bits.foldl (fun n b => 2 * n + b.toNat) 0

/-- The bits of a number, most significant first, in a field of `len`. -/
def natToBits (len n : Nat) : List Bool := (List.range len).map fun i => n.testBit (len - 1 - i)

/-- The polynomial (R174). -/
def CrcPoly.value : CrcPoly → Byte
  | .p31 => 0x31#8
  | .p9B => 0x9B#8

/-- One bit into the CRC register, most significant end first, without reflection. -/
def crcBit (poly crc : Byte) (b : Bool) : Byte :=
  if crc.getLsbD 7 != b then (crc <<< 1) ^^^ poly else crc <<< 1

/-- R174: CRC-8 of bits, initial value 0xFF, no final XOR. -/
def crc8 (poly : CrcPoly) (bits : List Bool) : Byte := bits.foldl (crcBit poly.value) 0xFF#8

/-! ## Fields of a frame (R172) -/

/-- The write flag: bit 7 of byte 0. -/
def frameWrites (bits : List Bool) : Bool := bits.headD false

/-- The register number: bits 6 to 0 of byte 0. -/
def frameRegister (bits : List Bool) : BitVec 7 := BitVec.ofNat 7 (bitsToNat ((bits.take 8).drop 1))

/-- Bytes 1 to 4, byte 1 most significant. -/
def frameData (bits : List Bool) : Word := BitVec.ofNat 32 (bitsToNat ((bits.take 40).drop 8))

/-- Byte 5, the CRC on SDI. -/
def frameCrc (bits : List Bool) : Byte := BitVec.ofNat 8 (bitsToNat ((bits.take 48).drop 40))

/-- R173: the length a frame must have. -/
def frameLength (crc : CrcConfig) : Nat := if crc.enable then 48 else 40

/-! ## The receiver -/

def State.setReceiver (r : Receiver) (s : State) : State := { s with mgp := { s.mgp with receiver := r } }

/-- R172, R174: nCS falls; the CRC configuration in force now checks the frame. -/
def State.ncsFall (s : State) : State :=
  match s.mgp.receiver with
  | .high => s.setReceiver (.receiving [] 0#32 s.mgp.crc 0)
  | .receiving _ _ _ _ => s
  | .abandoned => s

/-- R172: a rising edge of SCK samples SDI; at the eighth the named register is captured. -/
def State.sckRise (sdi : Bool) (s : State) : State :=
  match s.mgp.receiver with
  | .receiving bits captured crc shown =>
    let got := bits ++ [sdi]
    s.setReceiver (.receiving got (if got.length = 8 then s.readRegister (frameRegister got) else captured) crc shown)
  | .high => s
  | .abandoned => s

/-- R172: a falling edge of SCK moves SDO on to the bit after those sampled. -/
def State.sckFall (s : State) : State :=
  match s.mgp.receiver with
  | .receiving bits captured crc _ => s.setReceiver (.receiving bits captured crc bits.length)
  | .high => s
  | .abandoned => s

/-- R173: the check of a frame at the rise of nCS, and the write of one that passes. -/
def State.takeFrame (bits : List Bool) (crc : CrcConfig) (s : State) : State :=
  if bits.length ≠ frameLength crc then s.raise .frameError
  else if crc.enable = true ∧ frameCrc bits ≠ crc8 crc.poly (bits.take 40) then s.raise .crcError
  else if frameWrites bits then s.writeRegister (frameRegister bits) (frameData bits)
  else s

/-- R173, R184: nCS rises. A low period that began before a reset is no frame. -/
def State.ncsRise (s : State) : State :=
  match s.mgp.receiver with
  | .receiving bits _ crc _ => (s.setReceiver .high).takeFrame bits crc
  | .abandoned => s.setReceiver .high
  | .high => s

/-- NCS_RISE after the SDI bits sampled in this low period that the receiver has not seen yet; the low period begins here
where nCS stands high (log 7). -/
def State.lowPeriod (bits : List Bool) (s : State) : State :=
  (bits.foldl (fun s b => (s.sckRise b).sckFall) s.ncsFall).ncsRise

/-! ## SDO (R172) -/

/-- The bits the part shifts out in a frame, bit `k` from the `k`-th falling edge of SCK on: byte 0 is zero, then the captured value, then
with CRC enabled the CRC of the received byte 0 and SDO bytes 1 to 4, then zero. -/
def sdoBits (bits : List Bool) (captured : Word) (crc : CrcConfig) : List Bool :=
  List.replicate 8 false ++ natToBits 32 captured.toNat ++
  if crc.enable then natToBits 8 (crc8 crc.poly (bits.take 8 ++ natToBits 32 captured.toNat)).toNat else []

/-- SDO: none while it is undriven. It changes at a falling edge of SCK, so between a rising edge and the next falling edge
it still shows the bit before. -/
def State.sdo (s : State) : Option Bool :=
  match s.mgp.receiver with
  | .high => none
  | .receiving bits captured crc shown => some ((sdoBits bits captured crc).getD shown false)
  | .abandoned => some false

end Sys2Proof.Machine
end

