-- ==== Sys2Proof/Machine/Clock.lean ====
section
/-! DEFINITION. The Lease Clock and the tick at the Lease Engine (R103 to R109), and what the block does when no command
waits (log 2). -/

namespace Sys2Proof.Machine

/-! ## The tick (R105 to R108) -/

/-- R106: a HELD lease's remaining count falls by 1. -/
def Lease.lowered (l : Lease) : Lease := if l.state = .held then { l with remaining := l.remaining - 1 } else l

/-- R106: every HELD lease is counted down. -/
def State.lowerLeases (s : State) : State :=
  { s with le := { s.le with leases := mapTable s.le.leases fun _ l => l.lowered } }

/-- R107: every wait budget is counted down. -/
def State.lowerBudgets (s : State) : State :=
  s.setWaiters (s.le.waiters.map fun w => { w with budget := w.budget - 1 })

/-- R106: a HELD lease whose remaining count has reached 0. -/
def Lease.expiring (l : Lease) : Bool := l.state == .held && l.remaining == 0

/-- R106, R108 step 1: every lease that has reached 0 is revoked EXPIRED, and LEASE_EXPIRED is raised once. -/
def State.expireLeases (s : State) : State :=
  if allLeases.any fun id => (s.lease id).expiring then (s.revokeAll .expired Lease.expiring).raise .leaseExpired else s

/-- R105 to R108: LE takes a tick. -/
def State.tickAtLe (s : State) : State :=
  s.settle (s.lowerLeases.expireLeases.lowerBudgets.dropWaiters (fun w => w.budget == 0) .timedOut)

/-- R103, R105: the divider counter reaches 0: it is loaded again, and LE takes the tick, in one REFCLK period. While the
map is BOOT no tick is sent. -/
def State.tick (s : State) : State :=
  if s.mu.map = .boot then s else State.tickAtLe { s with divider := tickPeriod s.mgp.tickDiv }

/-- R106, R108 of one lease: a HELD lease at 0 is revoked EXPIRED, with the event and the scan (log 4). -/
def State.expireOne (id : LeaseId) (s : State) : State :=
  if (s.lease id).expiring then s.settle ((s.revoke .expired id).raise .leaseExpired) else s

/-- R107 of one waiter: a waiter at 0 is dropped TIMED_OUT, with the scan (log 4). -/
def State.timeOutOne (p : PortId) (tag : Tag) (s : State) : State :=
  s.settle (s.dropWaiters (fun w => w.requester == p && w.tag == tag && w.budget == 0) .timedOut)

/-! ## Completions whose cause stands (log 4) -/

/-- R76: no accepted access of any port is in flight under the lease. -/
def State.noAccessUnder (s : State) (id : LeaseId) : Bool :=
  allPorts.all fun p =>
    (s.port p).access.state == .idle || (s.port p).access.lease != some (id, (s.lease id).generation)

/-- R76: a DRAINING lease whose access has ended reaches its drain end. -/
def State.drainOne (id : LeaseId) (s : State) : State :=
  if (s.lease id).state = .draining ∧ s.noAccessUnder id = true then s.drainLease id else s

/-! ## The divider (R103) -/

/-- R103: one REFCLK period. -/
def State.refclkPeriod (s : State) : State :=
  if s.mu.map = .boot then s
  else if s.divider ≤ 1 then s.tick
  else { s with divider := s.divider - 1 }

/-! ## No command waiting (log 2) -/

/-- The effect of a pin event. -/
def State.pinEvent (e : PinEvent) (s : State) : State :=
  match e with
  | .refclk => s.refclkPeriod
  | .bclk ready data => s.bclkPeriod ready data
  | .ncsFall => s.ncsFall
  | .sckRise sdi => s.sckRise sdi
  | .sckFall => s.sckFall

/-- R26: the lowest port with a presentation standing that it can take. -/
def State.takeablePort (s : State) : Option (PortId × Presentation) :=
  allPorts.findSome? fun p => if s.canTake p then (s.port p).standing.map fun a => (p, a) else none

/-- R120: a grant decision is due. -/
def State.decisionDue (s : State) : Bool := s.bsq.hold.isNone && !s.noneWaiting

/-- The step on an empty queue (log 2): an event the part makes of itself, else the next pin event, else nothing. -/
def State.idleStep (s : State) : State :=
  if s.le.resumeScans ≠ 0 then s.resumeScan
  else
    match s.takeablePort with
    | some (p, _) => s.takeStanding p
    | none =>
      if s.decisionDue then s.grantDecision
      else
        match s.inputs with
        | [] => s
        | e :: rest => State.pinEvent e { s with inputs := rest }

end Sys2Proof.Machine
end

