-- ==== Sys2Proof/Machine/BusEvents.lean ====
section
/-! DEFINITION. The events of the shared bus, and the completions that follow from access ends (R120, R126, R128, R76, R23, R181, R95). -/

namespace Sys2Proof.Machine

/-- BUS_GRANT_DECISION (R120 to R122). -/
def execBusGrantDecision (s : State) : Host.Outcome State Fault Refusal :=
  .next (s.grantDecision)

/-- DEVICE_CYCLE_COMPLETE (R126). -/
def execDeviceCycleComplete (data : Word) (s : State) : Host.Outcome State Fault Refusal :=
  .next (s.cycleComplete data)

/-- BUS_TIMEOUT_EXPIRY (R128 to R130). -/
def execBusTimeoutExpiry (s : State) : Host.Outcome State Fault Refusal :=
  .next (s.cycleTimeout)

/-- LEASE_DRAIN_END (R76), where the lease is DRAINING and its access has ended (log 4). -/
def execLeaseDrainEnd (id : LeaseId) (s : State) : Host.Outcome State Fault Refusal :=
  .next (s.drainOne id)

/-- RETIRE_COMPLETION (R23), where its condition holds (log 4). -/
def execRetireCompletion (r : RegionId) (s : State) : Host.Outcome State Fault Refusal :=
  .next (s.retireTest r)

/-- SOFT_RESET_COMPLETION (R181), where its condition holds (log 4). -/
def execSoftResetCompletion (s : State) : Host.Outcome State Fault Refusal :=
  .next (s.softResetReport)

/-- RESUME_GRANT_SCAN (R21, R95). -/
def execResumeGrantScan (s : State) : Host.Outcome State Fault Refusal :=
  .next (s.resumeScan)

end Sys2Proof.Machine
end

