-- ==== Sys2Proof/Machine/ClockEvents.lean ====
section
/-! DEFINITION. The events of lease time (R105 to R107). -/

namespace Sys2Proof.Machine

/-- TICK (R103, R105 to R108). -/
def execTick (s : State) : Host.Outcome State Fault Refusal :=
  .next (s.tick)

/-- LEASE_EXPIRY (R106, R108), where the lease stands HELD at 0 (log 4). -/
def execLeaseExpiry (id : LeaseId) (s : State) : Host.Outcome State Fault Refusal :=
  .next (s.expireOne id)

/-- WAIT_BUDGET_EXPIRY (R107), where the waiter's budget stands at 0 (log 4). -/
def execWaitBudgetExpiry (p : PortId) (tag : Tag) (s : State) : Host.Outcome State Fault Refusal :=
  .next (s.timeOutOne p tag)

end Sys2Proof.Machine
end

