-- ==== Sys2Proof/Machine/HostCommands.lean ====
section
/-! DEFINITION. The host commands: an applied write of the row's code to HOST_CMD, with the argument in HOST_ARG (R178, log 6). -/

namespace Sys2Proof.Machine

/-- GO_LIVE (R2). -/
def execGoLive (s : State) : Host.Outcome State Fault Refusal :=
  .next (s.hostCommand 1#4)

/-- GROUP_SET (R7). -/
def execGroupSet (s : State) : Host.Outcome State Fault Refusal :=
  .next (s.hostCommand 2#4)

/-- REGION_COMMIT (R17 to R19). -/
def execRegionCommit (s : State) : Host.Outcome State Fault Refusal :=
  .next (s.hostCommand 3#4)

/-- REGION_SUSPEND (R20). -/
def execRegionSuspend (s : State) : Host.Outcome State Fault Refusal :=
  .next (s.hostCommand 4#4)

/-- REGION_RESUME (R21). -/
def execRegionResume (s : State) : Host.Outcome State Fault Refusal :=
  .next (s.hostCommand 5#4)

/-- REGION_RETIRE (R22, R23, R90). -/
def execRegionRetire (s : State) : Host.Outcome State Fault Refusal :=
  .next (s.hostCommand 6#4)

/-- LEASE_REVOKE (R78). -/
def execLeaseRevoke (s : State) : Host.Outcome State Fault Refusal :=
  .next (s.hostCommand 7#4)

/-- PORT_ONLINE (R154). -/
def execPortOnline (s : State) : Host.Outcome State Fault Refusal :=
  .next (s.hostCommand 8#4)

/-- PORT_OFFLINE (R155). -/
def execPortOffline (s : State) : Host.Outcome State Fault Refusal :=
  .next (s.hostCommand 9#4)

/-- PORT_RESTORE (R166). -/
def execPortRestore (s : State) : Host.Outcome State Fault Refusal :=
  .next (s.hostCommand 10#4)

/-- PURGE (R79). -/
def execPurge (s : State) : Host.Outcome State Fault Refusal :=
  .next (s.hostCommand 11#4)

/-- TARGET_CLEAR (R134). -/
def execTargetClear (s : State) : Host.Outcome State Fault Refusal :=
  .next (s.hostCommand 12#4)

/-- SOFT_RESET (R138, R180). -/
def execSoftReset (s : State) : Host.Outcome State Fault Refusal :=
  .next (s.hostCommand 13#4)

end Sys2Proof.Machine
end

