-- ==== Sys2Proof/Machine/LeaseCommands.lean ====
section
/-! DEFINITION. The lease commands as submitted at the window (R145, R187). -/

namespace Sys2Proof.Machine

/-- R145: the row of one lease command, the write at SUBMIT while REQUEST0 holds the row's code at the moment the write is
taken: after what stands at the port, where PTC can take that (log 8). With another code in REQUEST0 then, the write is
another row's, and this one changes nothing (log 5). -/
def State.submitRow (code : Nat) (p : PortId) (be : BitVec 4) (data : Word) (s : State) : State :=
  if reqCode ((s.takeStanding p).port p).request[0] = code then s.present p (s.windowPresentation .write 0x10 be data) else s

/-- CLAIM (R61 to R64, R85). -/
def execClaim (p : PortId) (be : BitVec 4) (data : Word) (s : State) : Host.Outcome State Fault Refusal :=
  .next (s.submitRow 1 p be data)

/-- RENEW (R66, R110 to R112). -/
def execRenew (p : PortId) (be : BitVec 4) (data : Word) (s : State) : Host.Outcome State Fault Refusal :=
  .next (s.submitRow 2 p be data)

/-- RELEASE (R67). -/
def execRelease (p : PortId) (be : BitVec 4) (data : Word) (s : State) : Host.Outcome State Fault Refusal :=
  .next (s.submitRow 3 p be data)

/-- UPGRADE (R69). -/
def execUpgrade (p : PortId) (be : BitVec 4) (data : Word) (s : State) : Host.Outcome State Fault Refusal :=
  .next (s.submitRow 4 p be data)

/-- DOWNGRADE (R70). -/
def execDowngrade (p : PortId) (be : BitVec 4) (data : Word) (s : State) : Host.Outcome State Fault Refusal :=
  .next (s.submitRow 5 p be data)

/-- WITHDRAW (R88). -/
def execWithdraw (p : PortId) (be : BitVec 4) (data : Word) (s : State) : Host.Outcome State Fault Refusal :=
  .next (s.submitRow 6 p be data)

/-- QUERY (R71). -/
def execQuery (p : PortId) (be : BitVec 4) (data : Word) (s : State) : Host.Outcome State Fault Refusal :=
  .next (s.submitRow 7 p be data)

/-- LOOKUP (R72). -/
def execLookup (p : PortId) (be : BitVec 4) (data : Word) (s : State) : Host.Outcome State Fault Refusal :=
  .next (s.submitRow 8 p be data)

end Sys2Proof.Machine
end

