-- ==== Sys2Proof/Machine/PortEvents.lean ====
section
/-! DEFINITION. Accesses at the requester ports: any access (R26, R29), and the window accesses with rows of their own (R143 to R150). -/

namespace Sys2Proof.Machine

/-- ACCESS_ARRIVAL (R26, R29). -/
def execAccessArrival (p : PortId) (a : Presentation) (s : State) : Host.Outcome State Fault Refusal :=
  .next (s.present p a)

/-- REQUEST_WRITE (R144): a write at REQUESTk, judged like every access (R29). -/
def execRequestWrite (p : PortId) (k : Fin 4) (be : BitVec 4) (data : Word) (s : State) : Host.Outcome State Fault Refusal :=
  .next (s.present p (s.windowPresentation .write (4 * k.val) be data))

/-- RESULT_READ (R146). -/
def execResultRead (p : PortId) (be : BitVec 4) (s : State) : Host.Outcome State Fault Refusal :=
  .next (s.present p (s.windowPresentation .read 0x20 be 0#32))

/-- PORT_STATUS_READ (R147). -/
def execPortStatusRead (p : PortId) (be : BitVec 4) (s : State) : Host.Outcome State Fault Refusal :=
  .next (s.present p (s.windowPresentation .read 0x30 be 0#32))

/-- NOTICE_READ (R150). -/
def execNoticeRead (p : PortId) (be : BitVec 4) (s : State) : Host.Outcome State Fault Refusal :=
  .next (s.present p (s.windowPresentation .read 0x3C be 0#32))

end Sys2Proof.Machine
end

