-- ==== Sys2Proof/Machine/RegisterEvents.lean ====
section
/-! DEFINITION. The register writes with rows of their own, every other register write, and the rise of nCS (R173 to R183). -/

namespace Sys2Proof.Machine

/-- TABLE_INDEX_WRITE (R177). -/
def execTableIndexWrite (v : Word) (s : State) : Host.Outcome State Fault Refusal :=
  .next (s.writeTableIndex v)

/-- EVENT_FLAGS_WRITE (R182). -/
def execEventFlagsWrite (v : Word) (s : State) : Host.Outcome State Fault Refusal :=
  .next (s.writeEventFlags v)

/-- EVENT_ENABLE_WRITE (R183). -/
def execEventEnableWrite (v : Word) (s : State) : Host.Outcome State Fault Refusal :=
  .next (s.writeEventEnable v)

/-- WINDOW_BASE_WRITE (R4). -/
def execWindowBaseWrite (v : Word) (s : State) : Host.Outcome State Fault Refusal :=
  .next (s.writeWindowBase v)

/-- FAULT_CONFIG_WRITE (R159, R164). -/
def execFaultConfigWrite (v : Word) (s : State) : Host.Outcome State Fault Refusal :=
  .next (s.writeFaultConfig v)

/-- CRC_CONTROL_WRITE (R174). -/
def execCrcControlWrite (v : Word) (s : State) : Host.Outcome State Fault Refusal :=
  .next (s.writeCrcControl v)

/-- REGISTER_WRITE (R175, R189). -/
def execRegisterWrite (n : BitVec 7) (v : Word) (s : State) : Host.Outcome State Fault Refusal :=
  .next (s.writeRegister n v)

/-- NCS_RISE (R172, R173). -/
def execNcsRise (bits : List Bool) (s : State) : Host.Outcome State Fault Refusal :=
  .next (s.lowPeriod bits)

end Sys2Proof.Machine
end

