-- ==== Sys2Proof/Machine/ResetEvents.lean ====
section
/-! DEFINITION. The resets of the part and of a requester (R140, R152, R153). -/

namespace Sys2Proof.Machine

/-- R152, steps 1 and 2: the in-reset flag is set, and an accepted access is orphaned (R137). -/
def State.enterReset (p : PortId) (s : State) : State :=
  s.updPort p fun q =>
    { q with requester := { q.requester with inReset := true }
             access := { q.access with orphaned := q.access.orphaned || q.access.state != .idle } }

/-- R152: the assertion of a requester's reset line. -/
def State.assertReset (p : PortId) (s : State) : State := (((s.enterReset p).clearRequest p).clearPort p)

/-- R153: the deassertion clears the in-reset flag and changes no other record; with an IDLE record the port then takes
the presentation standing at it, at once. -/
def State.deassertReset (p : PortId) (s : State) : State :=
  (s.updRequester p fun q => { q with inReset := false }).takeStanding p

/-- POWER_ON_RESET (R140, R156). -/
def execPowerOnReset (s : State) : Host.Outcome State Fault Refusal :=
  .next (s.hardwareReset)

/-- NRESET (R140): acts the same as power-on reset (0.6.5). -/
def execNreset (s : State) : Host.Outcome State Fault Refusal :=
  .next (s.hardwareReset)

/-- RQRST_ASSERTION (R152). -/
def execRqrstAssertion (p : PortId) (s : State) : Host.Outcome State Fault Refusal :=
  .next (s.assertReset p)

/-- RQRST_DEASSERTION (R153). -/
def execRqrstDeassertion (p : PortId) (s : State) : Host.Outcome State Fault Refusal :=
  .next (s.deassertReset p)

end Sys2Proof.Machine
end

