-- ==== Sys2Proof/Machine/Dispatch.lean ====
section
/-! DEFINITION. The effect of each command on everything but the queue. -/

namespace Sys2Proof.Machine

def exec (i : Instr) (s : State) : Host.Outcome State Fault Refusal :=
  match i with
  -- resets
  | .powerOnReset => Sys2Proof.Machine.execPowerOnReset s
  | .nreset => Sys2Proof.Machine.execNreset s
  | .rqrstAssertion p => Sys2Proof.Machine.execRqrstAssertion p s
  | .rqrstDeassertion p => Sys2Proof.Machine.execRqrstDeassertion p s
  -- accesses
  | .accessArrival p a => Sys2Proof.Machine.execAccessArrival p a s
  | .requestWrite p k be data => Sys2Proof.Machine.execRequestWrite p k be data s
  | .resultRead p be => Sys2Proof.Machine.execResultRead p be s
  | .portStatusRead p be => Sys2Proof.Machine.execPortStatusRead p be s
  | .noticeRead p be => Sys2Proof.Machine.execNoticeRead p be s
  -- lease commands
  | .claim p be data => Sys2Proof.Machine.execClaim p be data s
  | .renew p be data => Sys2Proof.Machine.execRenew p be data s
  | .release p be data => Sys2Proof.Machine.execRelease p be data s
  | .upgrade p be data => Sys2Proof.Machine.execUpgrade p be data s
  | .downgrade p be data => Sys2Proof.Machine.execDowngrade p be data s
  | .withdraw p be data => Sys2Proof.Machine.execWithdraw p be data s
  | .query p be data => Sys2Proof.Machine.execQuery p be data s
  | .lookup p be data => Sys2Proof.Machine.execLookup p be data s
  -- lease time
  | .tick => Sys2Proof.Machine.execTick s
  | .leaseExpiry id => Sys2Proof.Machine.execLeaseExpiry id s
  | .waitBudgetExpiry p tag => Sys2Proof.Machine.execWaitBudgetExpiry p tag s
  -- the shared bus and the completions
  | .busGrantDecision => Sys2Proof.Machine.execBusGrantDecision s
  | .deviceCycleComplete data => Sys2Proof.Machine.execDeviceCycleComplete data s
  | .busTimeoutExpiry => Sys2Proof.Machine.execBusTimeoutExpiry s
  | .leaseDrainEnd id => Sys2Proof.Machine.execLeaseDrainEnd id s
  | .retireCompletion r => Sys2Proof.Machine.execRetireCompletion r s
  | .softResetCompletion => Sys2Proof.Machine.execSoftResetCompletion s
  -- host commands
  | .goLive => Sys2Proof.Machine.execGoLive s
  | .groupSet => Sys2Proof.Machine.execGroupSet s
  | .regionCommit => Sys2Proof.Machine.execRegionCommit s
  | .regionSuspend => Sys2Proof.Machine.execRegionSuspend s
  | .regionResume => Sys2Proof.Machine.execRegionResume s
  | .resumeGrantScan => Sys2Proof.Machine.execResumeGrantScan s
  | .regionRetire => Sys2Proof.Machine.execRegionRetire s
  | .leaseRevoke => Sys2Proof.Machine.execLeaseRevoke s
  | .portOnline => Sys2Proof.Machine.execPortOnline s
  | .portOffline => Sys2Proof.Machine.execPortOffline s
  | .portRestore => Sys2Proof.Machine.execPortRestore s
  | .purge => Sys2Proof.Machine.execPurge s
  | .targetClear => Sys2Proof.Machine.execTargetClear s
  | .softReset => Sys2Proof.Machine.execSoftReset s
  -- management registers and the frame
  | .tableIndexWrite v => Sys2Proof.Machine.execTableIndexWrite v s
  | .eventFlagsWrite v => Sys2Proof.Machine.execEventFlagsWrite v s
  | .eventEnableWrite v => Sys2Proof.Machine.execEventEnableWrite v s
  | .windowBaseWrite v => Sys2Proof.Machine.execWindowBaseWrite v s
  | .faultConfigWrite v => Sys2Proof.Machine.execFaultConfigWrite v s
  | .crcControlWrite v => Sys2Proof.Machine.execCrcControlWrite v s
  | .registerWrite n v => Sys2Proof.Machine.execRegisterWrite n v s
  | .ncsRise bits => Sys2Proof.Machine.execNcsRise bits s

end Sys2Proof.Machine
end

