-- ==== Sys2Proof/Safety.lean ====
section
/-! DEFINITION. The laws of the part: what stays true of its records from step to step. Each is a decidable statement
about one state; the obligations say that every step keeps it. -/

namespace Sys2Proof.Safety

open Sys2Proof.Machine

/-- R4: the window base is 4 KiB aligned. -/
abbrev WindowAligned (s : State) : Prop := s.mu.windowBase &&& 0xFFF#32 = 0#32

/-- R3: while the map is BOOT, every lease slot is FREE and the Wait List is empty. -/
abbrev BootIsEmpty (s : State) : Prop :=
  s.mu.map = .boot → s.le.waiters = [] ∧ ∀ id : LeaseId, (s.lease id).state = .free

/-- R52, R149: the free-slot count is the number of FREE slots, and each tombstone count is the number of the requester's
REVOKED leases. -/
abbrev CountsAgree (s : State) : Prop :=
  s.le.freeSlots = allLeases.countP (fun id => (s.lease id).state == .free) ∧
  ∀ p : PortId, (s.port p).tombstones = allLeases.countP (s.tombstoneOf p)

/-- R82: a waiter of higher priority stands ahead of every waiter of lower priority. -/
abbrev WaitListOrdered (s : State) : Prop := s.le.waiters.Pairwise fun ahead behind => behind.priority ≤ ahead.priority

/-- R84, R87: no two waiters have the same requester and tag, and a waiting tag holds no notice. -/
abbrev TagsUnique (s : State) : Prop :=
  (s.le.waiters.Pairwise fun a b => ¬(a.requester = b.requester ∧ a.tag = b.tag)) ∧
  ∀ w ∈ s.le.waiters, (s.port w.requester).board[w.tag] = none

/-- R109, with what it rests on: every region term is at least 1, and the remaining ticks of a HELD lease lie between 1 and
its term. -/
abbrev TermsHold (s : State) : Prop :=
  (∀ r : RegionId, 1 ≤ (s.region r).term) ∧
  ∀ id : LeaseId, (s.lease id).state = .held → 1 ≤ (s.lease id).remaining ∧ (s.lease id).remaining ≤ (s.lease id).term

/-- R169, R159, R160: an ONLINE requester's fault count is below the threshold, another's is 0, and every quarantine count
is at most the limit. -/
abbrev FaultsContained (s : State) : Prop :=
  (1 ≤ s.ptc.threshold ∧ s.ptc.threshold ≤ 16 ∧ 1 ≤ s.ptc.limit ∧ s.ptc.limit ≤ 7) ∧
  ∀ p : PortId,
    (s.port p).requester.quarantines ≤ s.ptc.limit ∧
    ((s.port p).requester.state = .online → (s.port p).requester.faults < s.ptc.threshold) ∧
    ((s.port p).requester.state ≠ .online → (s.port p).requester.faults = 0)

/-- R168, R84: a HELD lease or a waiter belongs to an ONLINE requester not in reset and names an ACTIVE or SUSPENDED
region. -/
abbrev MayHold (s : State) (p : PortId) (r : RegionId) : Prop :=
  (s.port p).requester.state = .online ∧ (s.port p).requester.inReset = false ∧
  ((s.region r).state = .active ∨ (s.region r).state = .suspended)

/-- R168, R84. -/
abbrev HoldersOnline (s : State) : Prop :=
  (∀ id : LeaseId, (s.lease id).state = .held → MayHold s (s.lease id).holder (s.lease id).region) ∧
  ∀ w ∈ s.le.waiters, MayHold s w.requester w.region

/-- R55, R56: two live leases that overlap are both SHARED and of different holders, and no waiter overlaps a live lease or
another waiter of its own requester. -/
abbrev NoConflicts (s : State) : Prop :=
  (∀ i j : LeaseId, i ≠ j → (s.lease i).live = true → (s.lease j).live = true →
    (s.lease i).range.overlaps (s.lease j).range = true →
    (s.lease i).mode = .shared ∧ (s.lease j).mode = .shared ∧ (s.lease i).holder ≠ (s.lease j).holder) ∧
  (∀ w ∈ s.le.waiters, ∀ i : LeaseId, (s.lease i).live = true → (s.lease i).holder = w.requester →
    (s.lease i).range.overlaps w.range = false) ∧
  s.le.waiters.Pairwise fun a b => a.requester = b.requester → a.range.overlaps b.range = false

/-- R49, R53: the revoke reason is present in DRAINING and REVOKED, the drain end in DRAINING; a FREE slot holds the values
of Table 3-1. -/
abbrev LeaseShape (l : Lease) : Prop :=
  (l.reason.isSome = true ↔ l.state = .draining ∨ l.state = .revoked) ∧
  (l.drainEnd.isSome = true ↔ l.state = .draining) ∧
  (l.state = .free → l = Lease.freeWith l.generation)

/-- R49, R53. -/
abbrev LeasesShaped (s : State) : Prop := ∀ id : LeaseId, LeaseShape (s.lease id)

/-- Port `p` has an accepted, unended access. -/
abbrev InFlight (s : State) (p : PortId) : Prop := (s.port p).access.state ≠ .idle

/-- R41, R25, R76, R118: what an accepted access names is live and counted, and what is counted is named by one. -/
abbrev InFlightAgrees (s : State) : Prop :=
  (∀ p : PortId, InFlight s p → ∀ id g, (s.port p).access.lease = some (id, g) →
    (s.lease id).inFlight = true ∧ (s.lease id).generation = g ∧ (s.lease id).holder = p) ∧
  (∀ id : LeaseId, (s.lease id).inFlight = true →
    (s.lease id).live = true ∧ InFlight s (s.lease id).holder ∧
    (s.port (s.lease id).holder).access.lease = some (id, (s.lease id).generation)) ∧
  (∀ id : LeaseId, (s.lease id).state = .draining → (s.lease id).inFlight = true) ∧
  (∀ r : RegionId, (s.region r).inFlight =
    allPorts.countP fun p => (s.port p).access.state != .idle && (s.port p).access.region == some r) ∧
  ∀ p : PortId, (s.port p).access.state = .onBus ↔ s.bsq.hold.map (·.port) = some p

/-- R57, R15: the range of every live lease and of every waiter decodes to its region. -/
abbrev RangesDecode (s : State) : Prop :=
  (∀ id : LeaseId, (s.lease id).live = true → s.mu.decodeRange (s.lease id).range = some (s.lease id).region) ∧
  ∀ w ∈ s.le.waiters, s.mu.decodeRange w.range = some w.region

/-- R24: an INVALID slot has in-flight count 0, and no live lease and no waiter names it. -/
abbrev InvalidSlotsEmpty (s : State) : Prop :=
  ∀ r : RegionId, (s.region r).state = .invalid →
    (s.region r).inFlight = 0 ∧ (∀ id : LeaseId, (s.lease id).live = true → (s.lease id).region ≠ r) ∧
    ∀ w ∈ s.le.waiters, w.region ≠ r

/-- R6, R7, R9: VALID groups are aligned, of 64 KiB to 4 GiB, and disjoint, and a slot that is not INVALID lies aligned
inside its VALID group. -/
abbrev MapFits (s : State) : Prop :=
  (∀ g : GroupId, (s.mu.groups[g]).valid = true →
    16 ≤ (s.mu.groups[g]).exp.toNat ∧ (s.mu.groups[g]).exp.toNat ≤ 32 ∧ (s.mu.groups[g]).extent.aligned = true) ∧
  (∀ g h : GroupId, g ≠ h → (s.mu.groups[g]).valid = true → (s.mu.groups[h]).valid = true →
    (s.mu.groups[g]).extent.overlaps (s.mu.groups[h]).extent = false) ∧
  ∀ r : RegionId, (s.region r).state ≠ .invalid → fitsGroup s.mu.groups[groupOf r] (s.region r) = true

/-- R22, R23, R178: a slot is RETIRING exactly while the host command unit runs its retirement. -/
abbrev RetireAgrees (s : State) : Prop :=
  ∀ r : RegionId, (s.region r).state = .retiring ↔ s.mgp.unit = .retiring r

/-- R58: the holder of a HELD lease, and the requester of a waiter, has the rights its mode needs. -/
abbrev RightsSuffice (s : State) (p : PortId) (r : RegionId) (m : Mode) : Prop :=
  ((s.region r).rights[p]).allow (if m = .exclusive then .write else .read) = true

/-- R58. -/
abbrev HoldersHaveRights (s : State) : Prop :=
  (∀ id : LeaseId, (s.lease id).state = .held →
    RightsSuffice s (s.lease id).holder (s.lease id).region (s.lease id).mode) ∧
  ∀ w ∈ s.le.waiters, RightsSuffice s w.requester w.region w.mode

end Sys2Proof.Safety
end

