-- ==== Sys2Proof/WellFormed.lean ====
section
/-! DEFINITION. Which terms of `Instr` spell a command of their row. An ill-formed term still runs: it is an access of
no legal width, or a register write that another row names. -/

namespace Sys2Proof

/-- The byte enables a naturally aligned access of 1, 2 or 4 bytes inside one word can have (R27). -/
def alignedEnables (be : BitVec 4) : Bool :=
  be == 0b0001#4 || be == 0b0010#4 || be == 0b0100#4 || be == 0b1000#4 ||
  be == 0b0011#4 || be == 0b1100#4 || be == 0b1111#4

/-- Registers whose writes are rows of their own: CRC_CONTROL, WINDOW_BASE, EVENT_FLAGS, EVENT_ENABLE, TABLE_INDEX and
FAULT_CONFIG (Table 10-9). -/
def ownRowRegister (n : BitVec 7) : Bool :=
  n == 1#7 || n == 3#7 || n == 7#7 || n == 8#7 || n == 18#7 || n == 27#7

/-- A write to HOST_CMD whose code is a host command with a row of its own, 1 to 13 (Table 10-9). -/
def ownRowCommand (n : BitVec 7) (v : Word) : Bool :=
  n == 9#7 && decide (1 ≤ (v.extractLsb' 0 4).toNat) && decide ((v.extractLsb' 0 4).toNat ≤ 13)

/-- A term that spells a command of its row: a window access has passed check 4 (R33), and REGISTER_WRITE is a write to
any OTHER register than those with rows of their own. -/
def Instr.wellFormed : Instr → Bool
  | .powerOnReset => true
  | .nreset => true
  | .rqrstAssertion _ => true
  | .rqrstDeassertion _ => true
  | .accessArrival _ _ => true
  | .requestWrite _ _ be _ => alignedEnables be
  | .resultRead _ be => alignedEnables be
  | .portStatusRead _ be => alignedEnables be
  | .noticeRead _ be => alignedEnables be
  | .claim _ be _ => alignedEnables be
  | .renew _ be _ => alignedEnables be
  | .release _ be _ => alignedEnables be
  | .upgrade _ be _ => alignedEnables be
  | .downgrade _ be _ => alignedEnables be
  | .withdraw _ be _ => alignedEnables be
  | .query _ be _ => alignedEnables be
  | .lookup _ be _ => alignedEnables be
  | .tick => true
  | .leaseExpiry _ => true
  | .waitBudgetExpiry _ _ => true
  | .busGrantDecision => true
  | .deviceCycleComplete _ => true
  | .busTimeoutExpiry => true
  | .leaseDrainEnd _ => true
  | .retireCompletion _ => true
  | .softResetCompletion => true
  | .goLive => true
  | .groupSet => true
  | .regionCommit => true
  | .regionSuspend => true
  | .regionResume => true
  | .resumeGrantScan => true
  | .regionRetire => true
  | .leaseRevoke => true
  | .portOnline => true
  | .portOffline => true
  | .portRestore => true
  | .purge => true
  | .targetClear => true
  | .softReset => true
  | .tableIndexWrite _ => true
  | .eventFlagsWrite _ => true
  | .eventEnableWrite _ => true
  | .windowBaseWrite _ => true
  | .faultConfigWrite _ => true
  | .crcControlWrite _ => true
  | .registerWrite n v => !ownRowRegister n && !ownRowCommand n v
  | .ncsRise _ => true

end Sys2Proof
end

