-- ==== Sys2Proof/Certificates/Slice0/Obligations.lean ====
section
/-! DEFINITION. What is claimed of the part: one `def Obligations.<Name> : Prop` per claim, and the few words they share. -/

namespace Sys2Proof.Claims

open Sys2Proof.Machine
open Sys2Proof.Safety

/-! ## Words the claims share -/

/-- R26: port `p` takes a presentation at once: its record is IDLE, its reset line is deasserted, and nothing stands. -/
abbrev Ready (s : State) (p : PortId) : Prop :=
  (s.port p).access.state = .idle ∧ (s.port p).requester.inReset = false ∧ (s.port p).standing = none

/-- Checks 1 to 3 pass, and the window base is aligned as R4 has it. -/
abbrev WindowOpen (s : State) (p : PortId) : Prop :=
  Ready s p ∧ (s.port p).requester.state = .online ∧ s.mgp.unit ≠ .softResetting ∧ WindowAligned s

/-- A lease command of port `p` with this code, built in its REQUEST words, reaches LE (R59, R145). -/
abbrev Submits (s : State) (p : PortId) (be : BitVec 4) (code : Nat) : Prop :=
  WindowOpen s p ∧ alignedEnables be = true ∧ s.mu.map = .live ∧ reqCode (s.port p).request[0] = code

/-- R145, steps 3 and 4, R146: the result in the mailbox, and the SUBMIT write answered. -/
def Answered (p : PortId) (r : Reply) (s : State) : State :=
  s.updPort p fun q =>
    { q with mailbox := { result := resultWord r, data := r.data, valid := true
                          overrun := q.mailbox.overrun || q.mailbox.valid }
             answer := some .writeDone }

/-- R178: what the unit's registers hold after a command has completed, the code taken into HOST_CMD with it; bit 2 of the
flags is CMD_DONE. -/
def Completed (code : BitVec 4) (result : HostResult) (m : Management) : Management :=
  { m with hostCmd := code, hostStatus := { code := code, result := result }, unit := .idle
           flags := m.flags ||| 0b0000000100#10 }

/-- Changes one lease record and nothing else. -/
def SetLease (id : LeaseId) (l : Lease) (s : State) : State :=
  { s with le := { s.le with leases := s.le.leases.set id l } }

/-- Lease `id` is freed: its slot takes the values of Table 3-1 and keeps its generation, and the free-slot count rises. -/
def Freed (id : LeaseId) (s : State) : State :=
  { s with le := { s.le with
      leases := s.le.leases.set id (Lease.freeWith (s.lease id).generation), freeSlots := s.le.freeSlots + 1 } }

/-- A requester's tombstone count, changed. -/
def Tombstones (p : PortId) (f : Nat → Nat) (s : State) : State :=
  s.updPort p fun q => { q with tombstones := f q.tombstones }

/-- Waiter `w` has left the Wait List of `t`. -/
abbrev Left (t : State) (w : Waiter) : Prop := ∀ v ∈ t.le.waiters, ¬(v.requester = w.requester ∧ v.tag = w.tag)

/-- R53, R62, R97: the record a grant writes into a slot for a waiter, its generation advanced. -/
def GrantRecord (s : State) (w : Waiter) (id : LeaseId) : Lease :=
  { generation := (s.lease id).generation + 1#4, state := .held, holder := w.requester, region := w.region
    range := w.range, mode := w.mode, priority := w.priority
    term := cappedTerm w.term (s.region w.region).term, remaining := cappedTerm w.term (s.region w.region).term
    faults := 0, inFlight := false, reason := none, drainEnd := none }

/-- R97: slot `id` of `t` is what a grant to waiter `w` made of the slot of `s`, and the GRANTED notice stands under its tag.
-/
abbrev GrantedTo (s t : State) (w : Waiter) (id : LeaseId) : Prop :=
  t.lease id = GrantRecord s w id ∧
  (t.port w.requester).board[w.tag] = some (.granted id ((s.lease id).generation + 1#4))

/-- R97: between `s` and `t` a waiter was granted slot `id`: it left the list, and its notice stands under its tag. -/
abbrev Granted (s t : State) (id : LeaseId) : Prop := ∃ w ∈ s.le.waiters, Left t w ∧ GrantedTo s t w id

/-- The slots that were FREE stay as they were but for grants to waiters, and the waiters that stay keep their order. A waiter
that left the list was granted a slot, unless the event itself dropped or removed it, as `gone` says. -/
abbrev Scanned (s t : State) (gone : Waiter → Prop) : Prop :=
  t.le.waiters.Sublist s.le.waiters ∧
  (∀ id : LeaseId, (s.lease id).state = .free → t.lease id = s.lease id ∨ Granted s t id) ∧
  ∀ w ∈ s.le.waiters, Left t w → ¬gone w → ∃ id : LeaseId, GrantedTo s t w id

/-- The board of port `p` is as it was but for notices to waiters of its own that have left the list. -/
abbrev BoardKept (s t : State) (p : PortId) : Prop :=
  ∀ tag : Tag, (t.port p).board[tag] = (s.port p).board[tag] ∨
    ∃ w ∈ s.le.waiters, w.requester = p ∧ w.tag = tag ∧ Left t w

/-- Port `p` is as it was but for such notices. -/
abbrev PortKept (s t : State) (p : PortId) : Prop :=
  t.port p = { s.port p with board := (t.port p).board } ∧ BoardKept s t p

/-- Nothing but the Lease Table, the Wait List, the ports and the flags of these events differs between `s` and `t`. -/
abbrev Quiet (s t : State) (events : List Event) : Prop :=
  t = { s with
    le := { s.le with leases := t.le.leases, freeSlots := t.le.freeSlots, waiters := t.le.waiters }
    ptc := { s.ptc with ports := t.ptc.ports }
    mgp := { s.mgp with flags := t.mgp.flags } } ∧
  ∀ e : Event, e ∉ events → t.flagged e = s.flagged e

/-- R96: a grant scan has left nothing it could grant: each waiter left is on a SUSPENDED region, conflicts with a live lease
or with a waiter ahead of it, or finds no FREE slot. -/
abbrev ScanDone (t : State) : Prop :=
  ∀ (pre post : List Waiter) (w : Waiter), t.le.waiters = pre ++ w :: post →
    (t.region w.region).state = .suspended ∨ t.conflictsLive w.range w.mode = true ∨
    conflictsWaiter pre w.range w.mode = true ∨ t.lowestFree = none

/-- R97, R163: between `s` and `t` waiter `w` was granted slot `id` by the scan of an event whose barring then revoked the
lease PORT_BARRED; its GRANTED notice stays on the board. -/
abbrev GrantedThenBarred (s t : State) (w : Waiter) (id : LeaseId) : Prop :=
  t.lease id = { GrantRecord s w id with state := .revoked, reason := some .portBarred } ∧
  (t.port w.requester).board[w.tag] = some (.granted id ((s.lease id).generation + 1#4))

/-- R73: a HELD lease revoked with a reason: DRAINING with an access in flight, a tombstone with none. -/
def Revoked (x : RevokeReason) (l : Lease) : Lease :=
  if l.inFlight then { l with state := .draining, reason := some x, drainEnd := some .revoked }
  else { l with state := .revoked, reason := some x }

/-- R75, R92: requester `p` has no presence left in LE: its HELD and REVOKED slots are freed (and may be granted to a
waiter), its leases with an access in flight drain to FREE, its waiters are gone. Other slots in use are as they were. One
grant scan follows where a slot was freed or a waiter removed. -/
abbrev Cleared (s t : State) (p : PortId) : Prop :=
  (∀ id : LeaseId, (s.lease id).holder = p →
    ((s.lease id).state = .draining ∨ ((s.lease id).state = .held ∧ (s.lease id).inFlight = true) →
      t.lease id = { s.lease id with state := .draining, reason := some .silent, drainEnd := some .free }) ∧
    ((s.lease id).state = .revoked ∨ ((s.lease id).state = .held ∧ (s.lease id).inFlight = false) →
      t.lease id = Lease.freeWith (s.lease id).generation ∨ Granted s t id)) ∧
  (∀ w ∈ t.le.waiters, w.requester ≠ p) ∧
  (∀ id : LeaseId, (s.lease id).holder ≠ p → (s.lease id).state ≠ .free → t.lease id = s.lease id) ∧
  Scanned s t (fun w => w.requester = p) ∧
  ((∃ id : LeaseId, (s.lease id).holder = p ∧
      ((s.lease id).state = .revoked ∨ ((s.lease id).state = .held ∧ (s.lease id).inFlight = false))) ∨
    (∃ w ∈ s.le.waiters, w.requester = p) → ScanDone t) ∧
  ∀ q : PortId, q ≠ p → PortKept s t q

/-- R163, R164: the HELD leases of the requesters `who` names are revoked PORT_BARRED, and their waiters dropped. Other
slots in use are as they were. -/
abbrev BarredAtLe (s t : State) (who : PortId → Prop) : Prop :=
  (∀ id : LeaseId, (s.lease id).state = .held → who (s.lease id).holder →
    t.lease id = Revoked .portBarred (s.lease id)) ∧
  (∀ id : LeaseId, (s.lease id).state ≠ .free → ¬((s.lease id).state = .held ∧ who (s.lease id).holder) →
    t.lease id = s.lease id) ∧
  (∀ w ∈ s.le.waiters, who w.requester →
    (t.port w.requester).board[w.tag] = some (.dropped .portBarred) ∧ Left t w) ∧
  Scanned s t (fun w => who w.requester)

/-- R136, R137: a port at the end of its access: an orphaned one gets no answer and no last-fault record. -/
def Told (ans : Answer) (fault : Option FaultReason) (q : Port) : Port :=
  let a := q.access
  let idle : Port := { q with access := { a with state := .idle } }
  if a.orphaned then idle
  else
    match fault with
    | none => { idle with answer := some ans }
    | some f =>
      { idle with answer := some ans
                  lastFault := { reason := some f, addr := a.addr, dir := a.dir, width := a.width } }

/-- R76: the access of port `p` was accepted under lease `id`, and the lease is DRAINING. -/
abbrev Drained (s : State) (p : PortId) (id : LeaseId) : Prop :=
  (s.port p).access.lease = some (id, (s.lease id).generation) ∧ (s.lease id).state = .draining

/-- R25: a region's in-flight count after the end of port `p`'s access. -/
def CountAfter (s : State) (p : PortId) (r : RegionId) : Nat :=
  if (s.port p).access.region = some r then (s.region r).inFlight - 1 else (s.region r).inFlight

/-- R23, R135 step 2, R76: the retirement of slot `r` completes at the end of port `p`'s access: the slot is RETIRING, its
count is 0, the end lowered that count or drained a lease of the slot, and no other DRAINING lease names the slot. -/
abbrev RetireCompletes (s : State) (p : PortId) (r : RegionId) : Prop :=
  (s.region r).state = .retiring ∧ CountAfter s p r = 0 ∧
  ((s.port p).access.region = some r ∨ ∃ id : LeaseId, Drained s p id ∧ (s.lease id).region = r) ∧
  ∀ id : LeaseId, (s.lease id).state = .draining → (s.lease id).region = r → Drained s p id

/-- R135: the end of port `p`'s access, with this answer and this reason for the last-fault record, both kept from
an orphaned access. -/
abbrev Ended (s t : State) (p : PortId) (ans : Answer) (fault : Option FaultReason) : Prop :=
  let a := (s.port p).access
  (∀ q : PortId, t.port q = { (if q = p then Told ans fault (s.port p) else s.port q) with
      board := (t.port q).board, tombstones := (t.port q).tombstones } ∧ BoardKept s t q) ∧
  t.mu = { s.mu with regions := t.mu.regions } ∧
  (∀ r : RegionId, t.region r =
    { s.region r with state := if RetireCompletes s p r then .invalid else (s.region r).state
                      inFlight := CountAfter s p r }) ∧
  ((∃ r : RegionId, RetireCompletes s p r) →
    t.mgp = { s.mgp with flags := t.mgp.flags, unit := .idle, hostStatus := { code := 6#4, result := .ok } } ∧
    t.flagged .cmdDone = true) ∧
  ((∀ r : RegionId, ¬RetireCompletes s p r) →
    t.mgp = { s.mgp with flags := t.mgp.flags } ∧ t.flagged .cmdDone = s.flagged .cmdDone) ∧
  (∀ e : Event, e ≠ .cmdDone → e ≠ .slotsLow → t.flagged e = s.flagged e) ∧
  (∀ id : LeaseId, a.lease = some (id, (s.lease id).generation) →
    ((s.lease id).state = .held → t.lease id = { s.lease id with inFlight := false }) ∧
    ((s.lease id).state = .draining → (s.lease id).drainEnd = some .revoked →
      t.lease id = { s.lease id with state := .revoked, inFlight := false, drainEnd := none } ∧
      ∀ q : PortId, (t.port q).tombstones = (s.port q).tombstones + if q = (s.lease id).holder then 1 else 0) ∧
    ((s.lease id).state = .draining → (s.lease id).drainEnd = some .free →
      (t.lease id = Lease.freeWith (s.lease id).generation ∨ Granted s t id) ∧
      ∀ q : PortId, (t.port q).tombstones = (s.port q).tombstones) ∧
    ((s.lease id).state = .draining → ScanDone t)) ∧
  (∀ id : LeaseId, a.lease ≠ some (id, (s.lease id).generation) → (s.lease id).state ≠ .free → t.lease id = s.lease id) ∧
  Scanned s t (fun _ => False) ∧
  ((∀ id : LeaseId, ¬Drained s p id) → t.le.waiters = s.le.waiters ∧ t.le.freeSlots = s.le.freeSlots ∧
    t.flagged .slotsLow = s.flagged .slotsLow ∧
    ∀ q : PortId, (t.port q).board = (s.port q).board ∧ (t.port q).tombstones = (s.port q).tombstones) ∧
  t.bsq = { s.bsq with hold := if s.bsq.hold.map (·.port) = some p then none else s.bsq.hold } ∧
  t.le.nextArrival = s.le.nextArrival ∧ t.le.resumeScans = s.le.resumeScans ∧ t.freeDraws = s.freeDraws ∧
  t.divider = s.divider ∧ t.ptc.threshold = s.ptc.threshold ∧ t.ptc.limit = s.ptc.limit

/-- R161, steps 1 to 3: the requester record at a barring. -/
def Barred (limit : Nat) (q : Requester) : Requester :=
  let k := if q.quarantines = limit then q.quarantines else q.quarantines + 1
  { q with faults := 0, quarantines := k, state := if k = limit then .lockedOut else .quarantined }

/-- A device bus error of port `p`, with the last-fault record of R44. -/
def BusError (p : PortId) (f : FaultReason) (addr : Word) (dir : Direction) (width : Nat) (s : State) : State :=
  s.updPort p fun q =>
    { q with answer := some .busError, lastFault := { reason := some f, addr := addr, dir := dir, width := width } }

/-- R181: a soft reset has completed, in the event in which the accesses of the ports that `ends` names ended. Each slot keeps
its generation, but for one that the grant scan of a drain end granted to a waiter before the completion. (That the scans
asked for by REGION_RESUME are kept is the model's, log 18.) -/
abbrev SoftResetDone (s t : State) (ends : PortId → Prop) : Prop :=
  let drained := ∃ p : PortId, ends p ∧ ∃ id : LeaseId, Drained s p id
  (∀ id : LeaseId, t.lease id = Lease.freeWith (t.lease id).generation ∧
    ((t.lease id).generation = (s.lease id).generation ∨
      (drained ∧ s.le.waiters ≠ [] ∧
        ((s.lease id).state = .free ∨ ((s.lease id).state = .draining ∧ (s.lease id).drainEnd = some .free)) ∧
        (t.lease id).generation = (s.lease id).generation + 1#4))) ∧
  t.le.freeSlots = 64 ∧ t.le.waiters = [] ∧ t.le.nextArrival = 0#16 ∧ t.le.resumeScans = s.le.resumeScans ∧
  t.freeDraws = s.freeDraws ∧
  (∀ p : PortId, t.port p =
    { s.port p with
      requester := { (s.port p).requester with
        faults := 0
        state := if (s.port p).requester.state = .lockedOut then .lockedOut
          else if p = 0 then .online else .offline }
      access := { state := .idle, addr := 0#32, dir := .read, width := 0, data := 0#32, region := none
                  lease := none, cycle := { target := 0, width := .w8, waits := 0#4, ready := .internal }
                  cyclesDone := 0, orphaned := false }
      request := #v[0#32, 0#32, 0#32, 0#32]
      mailbox := { result := 0#32, data := #v[0#32, 0#32, 0#32], valid := false, overrun := false }
      board := #v[none, none, none, none], tombstones := 0
      lastFault := { reason := none, addr := 0#32, dir := .read, width := 0 }
      answer := (t.port p).answer }) ∧
  (∀ r : RegionId, t.region r = { s.region r with inFlight := 0 }) ∧ t.mu = { s.mu with regions := t.mu.regions } ∧
  (∀ x : TargetId, t.target x = { s.target x with state := .online, consecutive := 0 }) ∧
  (∀ l : Priority, t.bsq.pointers[l] = 3) ∧ t.bsq.hold = none ∧ t.bsq.busTimeout = s.bsq.busTimeout ∧
  t.ptc.threshold = s.ptc.threshold ∧ t.ptc.limit = s.ptc.limit ∧ t.divider = s.divider ∧
  t.mgp = { s.mgp with hostStatus := { code := 13#4, result := .ok }, unit := .idle, flags := t.mgp.flags } ∧
  t.flagged .cmdDone = true ∧ ∀ e : Event, e ≠ .cmdDone → e ≠ .slotsLow → t.flagged e = s.flagged e

/-- R120: the arbiter's choice: the first waiting port of the highest waiting level, in the order after the pointer. -/
abbrev Picked (s : State) (l : Priority) (p : PortId) : Prop :=
  (s.port p).access.state = .waitingBus ∧ (s.port p).requester.busPriority = l ∧
  ∀ q : PortId, (s.port q).access.state = .waitingBus →
    (s.port q).requester.busPriority ≤ l ∧
    ((s.port q).requester.busPriority = l → p - s.bsq.pointers[l] - 1 ≤ q - s.bsq.pointers[l] - 1)

/-! ## Where an address and a range go -/

/-- The address lies in the bytes from a start, 2 to the exponent of them. -/
abbrev Spans (start : Word) (exp : Nat) (x : Word) : Prop :=
  start.toNat ≤ x.toNat ∧ x.toNat < start.toNat + 2 ^ exp

/-- R27: the enables name `w` adjacent bytes, the lowest of them byte `k` of the word. -/
abbrev Names (be : BitVec 4) (w : Nat) (k : Fin 4) : Prop :=
  k.val + w ≤ 4 ∧ ∀ i : Fin 4, be.getLsbD i.val = decide (k.val ≤ i.val ∧ i.val < k.val + w)

/-- R27: an access of a legal width, 1, 2 or 4 bytes, is naturally aligned: its address is a multiple of the width, and the
lowest byte it names is the byte at its address. -/
abbrev Aligned (a : Presentation) : Prop :=
  ∃ w ∈ [1, 2, 4], ∃ k : Fin 4, Names a.be w k ∧ a.addr.toNat % w = 0 ∧ a.addr.toNat % 4 = k.val

/-- R6: a VALID group contains an address. -/
abbrev InGroup (m : MapUnit) (g : GroupId) (x : Word) : Prop :=
  (m.groups[g]).valid = true ∧ Spans (m.groups[g]).base (m.groups[g]).exp.toNat x

/-- R6, R9: slot `r` is one of the eight of group `g`, is not INVALID, and its extent contains an address. -/
abbrev InSlot (m : MapUnit) (g : GroupId) (r : RegionId) (x : Word) : Prop :=
  r.val / 8 = g.val ∧ (m.regions[r]).state ≠ .invalid ∧
  Spans ((m.groups[g]).base + (m.regions[r]).offset) (m.regions[r]).exp.toNat x

/-- R13, R14, R5: where an address goes: the window first; in BOOT boot decode; in LIVE the lowest slot, not INVALID, of the
one group that contains it. -/
abbrev AddressGoes (m : MapUnit) (p : PortId) (dir : Direction) (x : Word) (d : Decoded) : Prop :=
  let window := Spans m.windowBase 12 x
  (window → d = .window) ∧
  (¬window → m.map = .boot → d = if p = 0 ∧ dir = .read then .bootRead else .mapBoot) ∧
  (¬window → m.map = .live →
    ((∀ g : GroupId, ¬InGroup m g x) → d = .noRegion) ∧
    ∀ g : GroupId, InGroup m g x → (∀ h : GroupId, h ≠ g → ¬InGroup m h x) →
      ((∀ r : RegionId, ¬InSlot m g r x) → d = .noRegion) ∧
      ∀ r : RegionId, InSlot m g r x → (∀ k : RegionId, k < r → ¬InSlot m g k x) →
        d = if (m.regions[r]).state = .active then .region r else .inactive r)

/-- One range contains another. -/
abbrev Holds (start : Word) (exp : Nat) (q : AddrRange) : Prop :=
  start.toNat ≤ q.start.toNat ∧ q.start.toNat + 2 ^ q.exp.toNat ≤ start.toNat + 2 ^ exp

/-- Two ranges share a byte. -/
abbrev Meets (start : Word) (exp : Nat) (q : AddrRange) : Prop :=
  start.toNat < q.start.toNat + 2 ^ q.exp.toNat ∧ q.start.toNat < start.toNat + 2 ^ exp

/-- R15: where a range goes: to a slot that contains it, in a VALID group that contains it, clear of the window, with no
lower slot of the group, not INVALID, over any byte of it; in LIVE only. -/
abbrev RangeGoes (m : MapUnit) (q : AddrRange) (d : Option RegionId) : Prop :=
  let inGroup := fun (g : GroupId) =>
    (m.groups[g]).valid = true ∧ Holds (m.groups[g]).base (m.groups[g]).exp.toNat q
  let here := fun (g : GroupId) (r : RegionId) => r.val / 8 = g.val ∧ (m.regions[r]).state ≠ .invalid
  let named := fun (g : GroupId) (r : RegionId) =>
    here g r ∧ Holds ((m.groups[g]).base + (m.regions[r]).offset) (m.regions[r]).exp.toNat q ∧
    ∀ k : RegionId, k < r → here g k →
      ¬Meets ((m.groups[g]).base + (m.regions[k]).offset) (m.regions[k]).exp.toNat q
  (m.map = .boot ∨ Meets m.windowBase 12 q ∨ (∀ g : GroupId, ¬inGroup g) → d = none) ∧
  (m.map = .live → ¬Meets m.windowBase 12 q → ∀ g : GroupId, inGroup g → (∀ h : GroupId, h ≠ g → ¬inGroup h) →
    (∀ r : RegionId, named g r → d = some r) ∧ ((∀ r : RegionId, ¬named g r) → d = none))

/-! ## Snapshots and staging words, field by field -/

/-- Table 10-10, GROUPS. -/
abbrev GroupLayout (g : Group) (d : Vector Word 4) : Prop :=
  field d[0] 0 1 = g.valid.toNat ∧ field d[0] 8 6 = g.exp.toNat ∧ d[0] &&& 0xFFFFC0FE#32 = 0#32 ∧ d[1] = g.base ∧
  d[2] = 0#32 ∧ d[3] = 0x80000000#32

/-- Table 10-10, REGIONS, its first three words as REGION_STAGE0 to REGION_STAGE2 (Table 10-9). -/
abbrev RegionLayout (r : Region) (d : Vector Word 4) : Prop :=
  (field d[0] 0 6 = r.exp.toNat ∧ d[0] &&& 0xFFFFFF00#32 = r.offset &&& 0xFFFFFF00#32 ∧ d[0] &&& 0xC0#32 = 0#32) ∧
  (field d[1] 0 3 = r.cycle.target.val ∧ field d[1] 4 2 = r.cycle.width.code ∧ field d[1] 8 4 = r.cycle.waits.toNat ∧
    field d[1] 12 1 = r.cycle.ready.code ∧ field d[1] 16 2 = r.policy.code ∧
    (∀ p : PortId, field d[1] (24 + 2 * p.val) 2 = (r.rights[p]).code) ∧ d[1] &&& 0x00FCE0C8#32 = 0#32) ∧
  (field d[2] 0 16 = r.term % 65536 ∧ field d[2] 16 3 = r.share % 8 ∧ field d[2] 20 4 = r.earlyLimit % 16 ∧
    field d[2] 24 1 = r.yield.toNat ∧ d[2] &&& 0xFE080000#32 = 0#32) ∧
  field d[3] 0 2 = r.state.code ∧ field d[3] 2 3 = r.inFlight % 8 ∧ d[3] &&& 0xFFFFFFE0#32 = 0x80000000#32

/-- Table 10-10, LEASES. -/
abbrev LeaseLayout (l : Lease) (d : Vector Word 4) : Prop :=
  (field d[0] 0 2 = l.state.code ∧ field d[0] 2 4 = l.generation.toNat ∧ field d[0] 6 2 = l.holder.val ∧
    field d[0] 8 1 = l.mode.code ∧ field d[0] 9 6 = l.range.exp.toNat ∧ field d[0] 16 3 = reasonCode l.reason ∧
    field d[0] 20 4 = l.faults % 16 ∧ field d[0] 24 5 = l.region.val ∧ d[0] &&& 0xE0088000#32 = 0#32) ∧
  d[1] = l.range.start ∧ field d[2] 0 16 = l.remaining % 65536 ∧ field d[2] 16 16 = l.term % 65536 ∧
  field d[3] 0 2 = l.priority.val ∧ field d[3] 2 1 = l.inFlight.toNat ∧ field d[3] 3 2 = drainEndCode l.drainEnd ∧
  d[3] &&& 0xFFFFFFE0#32 = 0x80000000#32

/-- Table 10-10, WAITERS. -/
abbrev WaiterLayout (w : Waiter) (d : Vector Word 4) : Prop :=
  (field d[0] 0 2 = w.requester.val ∧ field d[0] 2 2 = w.tag.val ∧ field d[0] 4 5 = w.region.val ∧
    field d[0] 9 1 = w.mode.code ∧ field d[0] 10 2 = w.priority.val ∧ field d[0] 12 6 = w.range.exp.toNat ∧
    d[0] &&& 0xFFFC0000#32 = 0#32) ∧
  d[1] = w.range.start ∧ field d[2] 0 16 = w.term % 65536 ∧ field d[2] 16 16 = w.budget % 65536 ∧
  field d[3] 0 16 = w.arrival.toNat ∧ d[3] &&& 0xFFFF0000#32 = 0x80000000#32

/-- Table 10-10, PORTS, its first word as PORT_STATUS (Table 10-8) with the in-reset flag. -/
abbrev PortLayout (p : PortId) (q : Port) (d : Vector Word 4) : Prop :=
  (field d[0] 7 1 = q.requester.inReset.toNat ∧ d[0] &&& 0xFFFFFF7F#32 = portStatusWord p q) ∧ d[1] = q.access.addr ∧
  (field d[2] 0 2 = q.access.state.code ∧ field d[2] 2 1 = directionCode q.access.dir ∧
    field d[2] 3 3 = q.access.width % 8 ∧
    (q.access.region = none → field d[2] 6 6 = 0) ∧
    (∀ r : RegionId, q.access.region = some r → field d[2] 6 5 = r.val ∧ field d[2] 11 1 = 1) ∧
    (q.access.lease = none → field d[2] 12 11 = 0) ∧
    (∀ (id : LeaseId) (g : Generation), q.access.lease = some (id, g) →
      field d[2] 12 6 = id.val ∧ field d[2] 18 4 = g.toNat ∧ field d[2] 22 1 = 1) ∧
    field d[2] 23 3 = q.access.cycle.target.val ∧ field d[2] 26 2 = q.access.cycle.width.code ∧
    d[2] &&& 0xF0000000#32 = 0#32) ∧
  field d[3] 0 4 = q.access.cycle.waits.toNat ∧ field d[3] 4 1 = q.access.cycle.ready.code ∧
  field d[3] 5 3 = q.access.cyclesDone % 8 ∧ field d[3] 8 1 = q.access.orphaned.toNat ∧
  field d[3] 10 2 = q.requester.busPriority.val ∧ field d[3] 12 2 = q.requester.claimCap.val ∧
  d[3] &&& 0xFFFFC200#32 = 0x80000000#32

/-- Table 10-10, TARGETS. -/
abbrev TargetLayout (t : Target) (d : Vector Word 4) : Prop :=
  field d[0] 0 1 = t.state.code ∧ field d[0] 4 4 = t.consecutive % 16 ∧ field d[0] 8 4 = t.limit % 16 ∧
  field d[0] 16 16 = t.total % 65536 ∧ d[0] &&& 0x0000F00E#32 = 0#32 ∧ d[1] = t.lastTimeout ∧ d[2] = 0#32 ∧
  d[3] = 0x80000000#32

/-- Table 10-9, R9: the staging words hold no descriptor: a port width, policy or rights field of 3, a term of 0, a renewal
share of 0 or above 4, or an early limit of 0. -/
abbrev Undescribed (w1 w2 : Word) : Prop :=
  field w1 4 2 = 3 ∨ field w1 16 2 = 3 ∨ (∃ p : PortId, field w1 (24 + 2 * p.val) 2 = 3) ∨ field w2 0 16 = 0 ∨
  field w2 16 3 = 0 ∨ 4 < field w2 16 3 ∨ field w2 20 4 = 0

/-- Table 10-9: the descriptor the staging words hold. -/
abbrev Describes (w0 w1 w2 : Word) (d : Region) : Prop :=
  (d.exp = w0.extractLsb' 0 6 ∧ d.offset = w0 &&& 0xFFFFFF00#32) ∧
  (d.cycle.target.val = field w1 0 3 ∧ d.cycle.width.code = field w1 4 2 ∧ d.cycle.waits.toNat = field w1 8 4 ∧
    d.cycle.ready.code = field w1 12 1 ∧ d.policy.code = field w1 16 2 ∧
    ∀ p : PortId, (d.rights[p]).code = field w1 (24 + 2 * p.val) 2) ∧
  d.term = field w2 0 16 ∧ d.share = field w2 16 3 ∧ d.earlyLimit = field w2 20 4 ∧ d.yield = w2.getLsbD 24

/-! ## Rows by port and by code -/

/-- The accesses of these commands are all `p`'s own. -/
def senderOf : Instr → Option PortId
  | .rqrstDeassertion p => some p
  | .accessArrival p _ => some p
  | .requestWrite p _ _ _ => some p
  | .resultRead p _ => some p
  | .portStatusRead p _ => some p
  | .noticeRead p _ => some p
  | .claim p _ _ => some p
  | .renew p _ _ => some p
  | .release p _ _ => some p
  | .upgrade p _ _ => some p
  | .downgrade p _ _ => some p
  | .withdraw p _ _ => some p
  | .query p _ _ => some p
  | .lookup p _ _ => some p
  | _ => none

/-- The lease commands as rows, by their codes (Table 10-3). -/
def leaseRow (code : Fin 9) (p : PortId) (be : BitVec 4) (data : Word) : Instr :=
  match code with
  | 1 => .claim p be data
  | 2 => .renew p be data
  | 3 => .release p be data
  | 4 => .upgrade p be data
  | 5 => .downgrade p be data
  | 6 => .withdraw p be data
  | 7 => .query p be data
  | _ => .lookup p be data

/-- The host commands as rows, by their codes (Table 10-9). -/
def hostRow (code : Fin 14) : Instr :=
  match code with
  | 1 => .goLive
  | 2 => .groupSet
  | 3 => .regionCommit
  | 4 => .regionSuspend
  | 5 => .regionResume
  | 6 => .regionRetire
  | 7 => .leaseRevoke
  | 8 => .portOnline
  | 9 => .portOffline
  | 10 => .portRestore
  | 11 => .purge
  | 12 => .targetClear
  | _ => .softReset

end Sys2Proof.Claims

open Sys2Proof Sys2Proof.Machine Sys2Proof.Safety Sys2Proof.Claims

/-! ## The step -/

/-- The block takes the command at the front of its queue. -/
def Obligations.StepRunsTheFrontCommand : Prop :=
  ∀ (s : State) (c : Instr) (rest : List Instr),
    s.pending = c :: rest → step s = exec c { s with pending := rest }

/-- The model's choice for an empty queue (log 2): a requested scan first, then the presentation that stands at the lowest port
with an IDLE record and its reset line deasserted, then a grant decision where the bus is FREE and a port waits, then the next
pin event; with none of them the block idles. A REFCLK period lowers the divider, or brings
the tick. The end of a BCLK period of a cycle with w wait states completes an INTERNAL cycle at period w + 1, and an EXTERNAL
one at the first period from w + 1 on at which ready is seen; at period N without that the EXTERNAL cycle times out. A fall
of nCS begins a frame with the CRC configuration then in force; the edges of SCK do what ReadFramesReturnRegisters says.
(That clock periods and DRDY come as pin events is log 19.) -/
def Obligations.EmptyQueueStep : Prop :=
  ∀ (s : State), s.pending = [] →
    let stands := fun (p : PortId) => (s.port p).access.state = .idle ∧ (s.port p).requester.inReset = false ∧
      (s.port p).standing ≠ none
    let due := s.bsq.hold = none ∧ ∃ p : PortId, (s.port p).access.state = .waitingBus
    (s.le.resumeScans ≠ 0 → step s = exec .resumeGrantScan s) ∧
    (s.le.resumeScans = 0 →
      (∀ p : PortId, stands p → (∀ q : PortId, q < p → ¬stands q) →
        ∀ a : Presentation, (s.port p).standing = some a →
          step s = exec (.accessArrival p a) (s.updPort p fun q => { q with standing := none })) ∧
      ((∀ p : PortId, ¬stands p) →
        (due → step s = exec .busGrantDecision s) ∧
        (¬due →
          (s.inputs = [] → step s = .next s) ∧
          ∀ (e : PinEvent) (rest : List PinEvent), s.inputs = e :: rest →
            let u : State := { s with inputs := rest }
            (e = .refclk →
              (s.mu.map = .boot → step s = .next u) ∧
              (s.mu.map = .live → s.divider ≤ 1 → step s = exec .tick u) ∧
              (s.mu.map = .live → 2 ≤ s.divider → step s = .next { u with divider := s.divider - 1 })) ∧
            (∀ (ready : Bool) (data : Word), e = .bclk ready data →
              (s.bsq.hold = none → step s = .next u) ∧
              ∀ h : BusHold, s.bsq.hold = some h →
                let c := (s.port h.port).access.cycle
                let k := h.periods + 1
                let counted : Host.Outcome State Fault Refusal :=
                  .next { u with bsq := { s.bsq with hold := some { h with periods := k } } }
                (c.ready = .internal →
                  (c.waits.toNat + 1 ≤ k → step s = exec (.deviceCycleComplete data) u) ∧
                  (k < c.waits.toNat + 1 → step s = counted)) ∧
                (c.ready = .external →
                  (c.waits.toNat + 1 ≤ k → ready = true → step s = exec (.deviceCycleComplete data) u) ∧
                  (k < c.waits.toNat + 1 ∨ ready = false →
                    (h.timeout ≤ k → step s = exec .busTimeoutExpiry u) ∧
                    (k < h.timeout → step s = counted)))) ∧
            (e = .ncsFall →
              (s.mgp.receiver = .high →
                step s = .next { u with mgp := { s.mgp with receiver := .receiving [] 0#32 s.mgp.crc 0 } }) ∧
              (s.mgp.receiver ≠ .high → step s = .next u)) ∧
            (∀ b : Bool, e = .sckRise b → step s = .next (u.sckRise b)) ∧
            (e = .sckFall → step s = .next u.sckFall))))

/-- No command stops the block, and none touches the queue or the pin events to come, the hardware resets among them. That
the queue and the pin events stand outside the part is the model's choice (log 1, log 2, log 25), and so is that states no
run reaches answer as well (log 3, log 21). -/
def Obligations.EveryCommandAnswersNext : Prop :=
  ∀ (s : State) (c : Instr), ∃ t, exec c s = .next t ∧ t.pending = s.pending ∧ t.inputs = s.inputs

/-! ## Resets -/

/-- Power-on reset and nRESET set the records of MU, LE, the Lease Clock and BSQ to their reset values. (That the count of
scans asked for by REGION_RESUME is 0 then is the model's, log 18, and so is that the draws of the free value stay, log 25.)
-/
def Obligations.HardwareResetRecords : Prop :=
  ∀ (s : State), ∃ t, exec .powerOnReset s = .next t ∧ exec .nreset s = .next t ∧
    t.mu.map = .boot ∧ t.mu.windowBase = 0xFFFFF000#32 ∧
    (∀ g : GroupId, t.mu.groups[g] = { valid := false, exp := 16#6, base := 0#32 }) ∧
    (∀ r : RegionId, t.region r =
      { state := .invalid, offset := 0#32, exp := 8#6
        cycle := { target := 0, width := .w8, waits := 0#4, ready := .internal }
        rights := #v[.none, .none, .none, .none], policy := .openAccess, term := 1, share := 1, earlyLimit := 1
        yield := false, inFlight := 0 }) ∧
    (∀ id : LeaseId, t.lease id =
      { generation := 0#4, state := .free, holder := 0, region := 0, range := { start := 0#32, exp := 8#6 }
        mode := .shared, priority := 0, term := 0, remaining := 0, faults := 0, inFlight := false, reason := none
        drainEnd := none }) ∧
    t.le.freeSlots = 64 ∧ t.le.waiters = [] ∧ t.le.nextArrival = 0#16 ∧ t.le.resumeScans = 0 ∧ t.divider = 25600 ∧
    t.freeDraws = s.freeDraws ∧
    t.bsq.hold = none ∧ (∀ l : Priority, t.bsq.pointers[l] = 3) ∧ t.bsq.busTimeout = 63#8 ∧
    ∀ x : TargetId, t.target x = { state := .online, consecutive := 0, limit := 4, total := 0, lastTimeout := 0#32 }

/-- Power-on reset and nRESET set the records of PTC and MGP to their reset values. The write data field at 0, and a
presentation and reset line left as the pins hold them, are the model's choices (log 15, log 16). -/
def Obligations.HardwareResetPorts : Prop :=
  ∀ (s : State), ∃ t, exec .powerOnReset s = .next t ∧ exec .nreset s = .next t ∧
    t.ptc.threshold = 8 ∧ t.ptc.limit = 3 ∧
    (∀ p : PortId, t.port p =
      { requester := { state := if p = 0 then .online else .offline, inReset := (s.port p).requester.inReset
                       faults := 0, quarantines := 0, busPriority := 0, claimCap := 3 }
        access := { state := .idle, addr := 0#32, dir := .read, width := 0, data := 0#32, region := none
                    lease := none, cycle := { target := 0, width := .w8, waits := 0#4, ready := .internal }
                    cyclesDone := 0, orphaned := false }
        request := #v[0#32, 0#32, 0#32, 0#32]
        mailbox := { result := 0#32, data := #v[0#32, 0#32, 0#32], valid := false, overrun := false }
        board := #v[none, none, none, none], tombstones := 0
        lastFault := { reason := none, addr := 0#32, dir := .read, width := 0 }
        standing := (s.port p).standing, answer := none }) ∧
    t.mgp =
      { crc := { enable := false, poly := .p31 }, tickDiv := 99#16, slotsLowMark := 4#6, flags := 0#10
        enables := 0#10, hostCmd := 0#4, hostArg := 0#12, hostStatus := { code := 0#4, result := .ok }
        unit := .idle, groupStage := 0#32, regionStage := #v[0#32, 0#32, 0#32], tableSelect := 0#3
        tableIndex := 0#8, tableData := #v[0#32, 0#32, 0#32, 0#32]
        receiver := if s.mgp.receiver = .high then .high else .abandoned } ∧
    t.mirq = false

/-- The laws of the part hold of the state after reset. -/
def Obligations.LawsHoldAtReset : Prop :=
  WindowAligned State.reset ∧ BootIsEmpty State.reset ∧ CountsAgree State.reset ∧ WaitListOrdered State.reset ∧
  TagsUnique State.reset ∧ TermsHold State.reset ∧ FaultsContained State.reset ∧ HoldersOnline State.reset ∧
  NoConflicts State.reset ∧ LeasesShaped State.reset ∧ InFlightAgrees State.reset ∧ RangesDecode State.reset ∧
  InvalidSlotsEmpty State.reset ∧ MapFits State.reset ∧ HoldersHaveRights State.reset ∧ RetireAgrees State.reset

/-- The assertion of a requester's reset line: its port records are cleared, its access orphaned, its presence in LE
cleared, and everything else kept. The deassertion clears the in-reset flag and changes no other record; where the port
access record is IDLE, the port takes the presentation standing at it at once. -/
def Obligations.RequesterResetClearsTheRequester : Prop :=
  ∀ (s : State) (p : PortId),
    (TagsUnique s → ∃ t, exec (.rqrstAssertion p) s = .next t ∧
      t.port p =
        { s.port p with
          requester := { (s.port p).requester with inReset := true, faults := 0 }
          access := { (s.port p).access with
            orphaned := (s.port p).access.orphaned || (s.port p).access.state != .idle }
          board := #v[none, none, none, none], tombstones := 0
          mailbox := { result := 0#32, data := #v[0#32, 0#32, 0#32], valid := false, overrun := false }
          request := #v[0#32, 0#32, 0#32, 0#32]
          lastFault := { reason := none, addr := 0#32, dir := .read, width := 0 } } ∧
      (t.port p).ntf = false ∧ Cleared s t p ∧ Quiet s t [.slotsLow]) ∧
    let out := s.updPort p fun q => { q with requester := { q.requester with inReset := false } }
    ((s.port p).standing = none ∨ (s.port p).access.state ≠ .idle → exec (.rqrstDeassertion p) s = .next out) ∧
    ∀ a : Presentation, (s.port p).standing = some a → (s.port p).access.state = .idle →
      exec (.rqrstDeassertion p) s = exec (.accessArrival p a) (out.updPort p fun q => { q with standing := none })

/-! ## Accesses -/

/-- An access presented while the port cannot take it stays presented, unanswered; one presented while another stands there
changes nothing. Where the port can take a presentation, the one standing is taken first, and the one presented after it.
(That one presentation stands at a port at a time, and the order, are the model's choice, log 8.) -/
def Obligations.PresentationWaits : Prop :=
  ∀ (s : State) (p : PortId) (a : Presentation),
    ((s.port p).access.state ≠ .idle ∨ (s.port p).requester.inReset = true →
    exec (.accessArrival p a) s =
      .next (s.updPort p fun q => { q with standing := some (q.standing.getD a) })) ∧
    ((s.port p).access.state = .idle → (s.port p).requester.inReset = false →
      ∀ b : Presentation, (s.port p).standing = some b →
        ∃ t, exec (.accessArrival p b) (s.updPort p fun q => { q with standing := none }) = .next t ∧
          exec (.accessArrival p a) s = exec (.accessArrival p a) t)

/-- Where MU sends an address: the window first, boot decode in BOOT, and in LIVE the lowest slot, not INVALID, of the group
that contains it; and the eleven checks of the judgement, in order. An access is aligned where its enables name 1, 2 or 4
adjacent bytes, its address is a multiple of that width, and the lowest byte named is the byte at the address. The reads that
check 2 lets a barred requester make are those of the four words at 0x030 to 0x03C of the window. -/
def Obligations.JudgementFollowsTheOrder : Prop :=
  ∀ (s : State) (p : PortId) (a : Presentation),
    let q := (s.port p).requester.state
    let exempt := a.dir = .read ∧ Aligned a ∧ s.mu.windowBase.toNat + 0x30 ≤ a.addr.toNat ∧
      a.addr.toNat < s.mu.windowBase.toNat + 0x40
    let passes12 := q = .online ∨ (q ≠ .offline ∧ exempt)
    let passes3 := passes12 ∧ s.mgp.unit ≠ .softResetting
    let passes4 := passes3 ∧ Aligned a
    let d := s.mu.decode p a.dir a.addr
    AddressGoes s.mu p a.dir a.addr d ∧
    (q = .offline → s.judge p a = .refuse .portOffline) ∧
    (q = .quarantined ∨ q = .lockedOut → ¬exempt → s.judge p a = .refuse .portBarred) ∧
    (passes12 → s.mgp.unit = .softResetting → s.judge p a = .refuse .resetting) ∧
    (passes3 → ¬Aligned a → s.judge p a = .refuse .align) ∧
    (passes4 → d = .window → s.judge p a = .window) ∧
    (passes4 → d = .mapBoot → s.judge p a = .refuse .mapBoot) ∧
    (passes4 → d = .noRegion → s.judge p a = .refuse .noRegion) ∧
    (passes4 → ∀ r : RegionId, d = .inactive r → s.judge p a = .refuse .regionInactive) ∧
    (passes4 → ∀ r : RegionId, d = .region r →
      let allowed := (s.region r).rights[p] = .readWrite ∨ ((s.region r).rights[p] = .read ∧ a.dir = .read)
      let needs := (s.region r).policy = .allLeased ∨ ((s.region r).policy = .writeLeased ∧ a.dir = .write)
      let closed := (s.target (s.region r).cycle.target).state = .faulted
      let covers := fun (id : LeaseId) => (s.lease id).state = .held ∧ (s.lease id).holder = p ∧
        Spans (s.lease id).range.start (s.lease id).range.exp.toNat a.addr ∧ ((s.lease id).mode = .exclusive ∨ a.dir = .read)
      (¬allowed → s.judge p a = .refuse .rights) ∧
      (allowed → needs → (∀ id : LeaseId, ¬covers id) → s.judge p a = .refuse .noLease) ∧
      (allowed → (needs → ∃ id : LeaseId, covers id) → closed → s.judge p a = .refuse .targetFaulted)) ∧
    (passes4 → d = .bootRead → (s.target 0).state = .faulted → s.judge p a = .refuse .targetFaulted)

/-- A refusal is answered with a bus error and recorded, and changes nothing else; a counted one that stays below the
threshold raises the fault count, and one that reaches it bars the requester, a grant scan following. (That the scan is made
whatever the barring changed is the model's choice, log 28.) -/
def Obligations.RefusalIsAnswered : Prop :=
  ∀ (s : State) (p : PortId) (a : Presentation) (f : FaultReason),
    Ready s p → s.judge p a = .refuse f →
    let counted := f = .align ∨ f = .noRegion ∨ f = .rights ∨ f = .noLease
    let n := (s.port p).requester.faults + 1
    let u := BusError p f a.addr a.dir (enabledCount a.be) s
    let barred := Barred s.ptc.limit (s.port p).requester
    (¬counted → exec (.accessArrival p a) s = .next u) ∧
    (counted → n < s.ptc.threshold →
      exec (.accessArrival p a) s =
        .next (u.updPort p fun q => { q with requester := { q.requester with faults := n } })) ∧
    (counted → s.ptc.threshold ≤ n → TagsUnique s → ∃ t, exec (.accessArrival p a) s = .next t ∧
      t.port p = { u.port p with requester := barred, board := (t.port p).board, tombstones := (t.port p).tombstones } ∧
      t.flagged .portLockedOut = (s.flagged .portLockedOut || decide (barred.state = .lockedOut)) ∧
      t.flagged .portQuarantined = (s.flagged .portQuarantined || decide (barred.state = .quarantined)) ∧
      BarredAtLe s t (fun q => q = p) ∧ BoardKept s t p ∧ ScanDone t ∧ (∀ q : PortId, q ≠ p → PortKept s t q) ∧
      Quiet s t [.slotsLow, .portLockedOut, .portQuarantined])

/-- An access that passes the checks is accepted: to an ACTIVE region, with the region's and the authorising lease's
in-flight counts; in BOOT a read of P0 outside the window, with the boot cycle fields, naming no region and no lease. The
port access record is filled, and nothing else changes. The authorising lease is HELD, the requester's, over the address, and
of a sufficient mode. (The model's choices: the data lanes, log 11; the write data a read leaves in the record, log 15; the
answer cleared until the end, log 17; the lowest slot where a state no run reaches holds several such leases, log 27.) -/
def Obligations.AccessIsAccepted : Prop :=
  ∀ (s : State) (p : PortId) (a : Presentation) (r : RegionId),
    Ready s p → (s.port p).requester.state = .online → s.mgp.unit ≠ .softResetting → Aligned a →
    let needs := (s.region r).policy = .allLeased ∨ ((s.region r).policy = .writeLeased ∧ a.dir = .write)
    let record := fun (region : Option RegionId) (lease : Option (LeaseId × Generation)) (c : CycleFields) (q : Port) =>
      { q with
        access :=
          { state := .waitingBus, addr := a.addr, dir := a.dir, width := enabledCount a.be
            data := if a.dir = .write then a.data &&& laneMask a.be else q.access.data
            region := region, lease := lease, cycle := c, cyclesDone := 0, orphaned := false }
        answer := none }
    let raised := s.updRegion r fun d => { d with inFlight := d.inFlight + 1 }
    let covers := fun (id : LeaseId) => (s.lease id).state = .held ∧ (s.lease id).holder = p ∧
      Spans (s.lease id).range.start (s.lease id).range.exp.toNat a.addr ∧ ((s.lease id).mode = .exclusive ∨ a.dir = .read)
    (s.mu.decode p a.dir a.addr = .region r →
      (s.region r).rights[p] = .readWrite ∨ ((s.region r).rights[p] = .read ∧ a.dir = .read) →
      (s.target (s.region r).cycle.target).state = .online →
      (¬needs → exec (.accessArrival p a) s =
        .next (raised.updPort p (record (some r) none (s.region r).cycle))) ∧
      (needs → ∀ id : LeaseId, covers id → (∀ j : LeaseId, j < id → ¬covers j) →
        exec (.accessArrival p a) s =
          .next ((SetLease id { s.lease id with inFlight := true } raised).updPort p
            (record (some r) (some (id, (s.lease id).generation)) (s.region r).cycle)))) ∧
    (s.mu.map = .boot → ¬Spans s.mu.windowBase 12 a.addr → p = 0 → a.dir = .read → (s.target 0).state = .online →
      exec (.accessArrival p a) s =
        .next (s.updPort p (record none none { target := 0, width := .w8, waits := 15#4, ready := .external })))

/-- The commands of the window are accesses to its words, judged like every access: a REQUEST write, the three reads with
an effect, and the lease commands as writes at SUBMIT, each taken by the row whose code stands in REQUEST0 and by no other
(log 5). The code is that of the moment the write is taken: where something stands at the port that it can take, of the state
after that is taken (log 8). The lowest byte named is the one at the address presented (log 26). -/
def Obligations.WindowRowsAreAccesses : Prop :=
  ∀ (s : State) (p : PortId) (k : Fin 4) (be : BitVec 4) (data : Word) (code : Fin 9),
    let at' := fun (off : Nat) => s.mu.windowBase + BitVec.ofNat 32 (off + lowestLane be)
    exec (.requestWrite p k be data) s =
      exec (.accessArrival p { addr := at' (4 * k.val), dir := .write, be := be, data := data }) s ∧
    exec (.resultRead p be) s = exec (.accessArrival p { addr := at' 0x20, dir := .read, be := be, data := 0#32 }) s ∧
    exec (.portStatusRead p be) s =
      exec (.accessArrival p { addr := at' 0x30, dir := .read, be := be, data := 0#32 }) s ∧
    exec (.noticeRead p be) s = exec (.accessArrival p { addr := at' 0x3C, dir := .read, be := be, data := 0#32 }) s ∧
    (1 ≤ code →
      let rowsBy := fun (u : State) =>
        (reqCode (u.port p).request[0] = code.val → exec (leaseRow code p be data) s =
          exec (.accessArrival p { addr := at' 0x10, dir := .write, be := be, data := data }) s) ∧
        (reqCode (u.port p).request[0] ≠ code.val → exec (leaseRow code p be data) s = .next s)
      ((s.port p).standing = none ∨ (s.port p).access.state ≠ .idle ∨ (s.port p).requester.inReset = true → rowsBy s) ∧
      ∀ (b : Presentation) (u : State), (s.port p).standing = some b → (s.port p).access.state = .idle →
        (s.port p).requester.inReset = false →
        exec (.accessArrival p b) (s.updPort p fun q => { q with standing := none }) = .next u → rowsBy u)

/-! ## The command window -/

/-- A REQUEST write replaces the named bytes of one word of its own port. Enables are aligned that name 1, 2 or 4 adjacent
bytes at a multiple of their number. (Which bits of the word a named byte is, is presumed, log 11.) -/
def Obligations.RequestWriteReplacesBytes : Prop :=
  ∀ (s : State) (p : PortId) (k : Fin 4) (be : BitVec 4) (data : Word),
    (alignedEnables be = true ↔ ∃ w ∈ [1, 2, 4], ∃ i : Fin 4, Names be w i ∧ i.val % w = 0) ∧
    (∀ (w : Fin 5) (i : Fin 4), 1 ≤ w → Names be w.val i → enabledCount be = w.val ∧ lowestLane be = i.val) ∧
    (∀ i : Fin 32, (laneMask be).getLsbD i.val = be.getLsbD (i.val / 8)) ∧
    (WindowOpen s p → alignedEnables be = true →
      exec (.requestWrite p k be data) s =
        .next (s.updPort p fun q =>
          { q with request := q.request.set k ((q.request[k] &&& ~~~(laneMask be)) ||| (data &&& laneMask be))
                   answer := some .writeDone }))

/-- RESULT, PORT_STATUS, LAST_FAULT and NOTICE reads: the named bytes of the word as it stands, and the one effect of each.
A QUARANTINED or LOCKED_OUT requester makes the last three as well. A read at SUBMIT or at an offset that names nothing
answers 0, and a write at any offset from 0x014 up is discarded. (The lanes of the answer, and the 0 in lanes not named, are
presumed, log 11; that REQUEST words are read with their reserved bits is the model's choice, log 29,
and that all of NONE is 0, log 31.) -/
def Obligations.WindowReadsAnswer : Prop :=
  ∀ (s : State) (p : PortId) (be : BitVec 4) (data : Word) (j : Fin 1024),
    Ready s p → (s.port p).requester.state ≠ .offline → s.mgp.unit ≠ .softResetting → WindowAligned s →
    alignedEnables be = true →
    let read := fun (off : Nat) => exec (.accessArrival p
      { addr := s.mu.windowBase + BitVec.ofNat 32 (off + lowestLane be), dir := .read, be := be, data := 0#32 }) s
    let answers := fun (w : Word) =>
      (.next (s.updPort p fun q => { q with answer := some (.readData (w &&& laneMask be)) }) :
        Host.Outcome State Fault Refusal)
    ((s.port p).requester.state = .online →
      (exec (.resultRead p be) s =
        .next (s.updPort p fun q =>
          { q with mailbox := { q.mailbox with valid := false }
                   answer := some (.readData ((q.mailbox.result ||| placeBit q.mailbox.valid 31) &&& laneMask be)) })) ∧
      (∀ k : Fin 4, read (4 * k.val) = answers (s.port p).request[k]) ∧
      (∀ k : Fin 3, read (0x24 + 4 * k.val) = answers (s.port p).mailbox.data[k]) ∧
      (j = 4 ∨ (5 ≤ j ∧ j < 8) ∨ 16 ≤ j → read (4 * j.val) = answers 0#32) ∧
      (5 ≤ j → exec (.accessArrival p
          { addr := s.mu.windowBase + BitVec.ofNat 32 (4 * j.val + lowestLane be), dir := .write, be := be, data := data }) s =
        .next (s.updPort p fun q => { q with answer := some .writeDone }))) ∧
    exec (.portStatusRead p be) s =
      .next (s.updPort p fun q =>
        { q with mailbox := { q.mailbox with overrun := false }
                 answer := some (.readData (portStatusWord p q &&& laneMask be)) }) ∧
    read 0x34 = answers (lastFaultWord (s.port p).lastFault) ∧ read 0x38 = answers (s.port p).lastFault.addr ∧
    (∀ (tag : Tag) (n : ClaimNotice), (s.port p).board[tag] = some n →
      (∀ u : Tag, u < tag → (s.port p).board[u] = none) →
      exec (.noticeRead p be) s =
        .next (s.updPort p fun q =>
          { q with board := q.board.set tag none
                   answer := some (.readData (claimNoticeWord tag n &&& laneMask be)) })) ∧
    ((∀ u : Tag, (s.port p).board[u] = none) →
      ((s.port p).tombstones = 0 → exec (.noticeRead p be) s = answers 0#32) ∧
      (∀ id : LeaseId, 0 < (s.port p).tombstones → (s.lease id).state = .revoked → (s.lease id).holder = p →
        (∀ j : LeaseId, j < id → ¬((s.lease j).state = .revoked ∧ (s.lease j).holder = p)) →
        exec (.noticeRead p be) s = answers (revocationWord id (s.lease id))))

/-- What the words of the window carry, field by field (Tables 10-3, 10-5, 10-7 and 10-8): REQUEST0, RESULT, NOTICE,
PORT_STATUS and the reason word of LAST_FAULT; and the values of the encodings (Tables 10-1 and 10-4, and those of Tables
10-7, 10-9 and 10-10). (That the fields a notice does not carry are 0 is the model's choice, log 31.) -/
def Obligations.WindowWordsCarryTheirFields : Prop :=
  ∀ (r : Reply) (id : LeaseId) (g : Generation) (tag : Tag) (x : DropReason) (l : Lease) (p : PortId) (q : Port)
    (f : LastFault) (word : Word),
    let w0 := resultWord r
    let wg := claimNoticeWord tag (.granted id g)
    let wd := claimNoticeWord tag (.dropped x)
    let wr := revocationWord id l
    let ws := portStatusWord p q
    let wf := lastFaultWord f
    (field w0 0 8 = r.code.code ∧ field w0 24 3 = reasonCode r.reason ∧
      field w0 31 1 = 0 ∧
      (r.lease = some (id, g) → field w0 8 6 = id.val ∧ field w0 16 4 = g.toNat) ∧
      (r.lease = none → field w0 8 6 = 0 ∧ field w0 16 4 = 0) ∧
      (r.tag = some tag → field w0 20 2 = tag.val) ∧ (r.tag = none → field w0 20 2 = 0)) ∧
    (field wg 0 3 = 1 ∧ field wg 4 2 = tag.val ∧ field wg 8 6 = id.val ∧ field wg 16 4 = g.toNat ∧ field wg 20 3 = 0) ∧
    (field wd 0 3 = 2 ∧ field wd 4 2 = tag.val ∧ field wd 8 6 = 0 ∧ field wd 16 4 = 0 ∧ field wd 20 3 = x.code) ∧
    (field wr 0 3 = 3 ∧ field wr 4 2 = 0 ∧ field wr 8 6 = id.val ∧ field wr 16 4 = l.generation.toNat ∧
      field wr 20 3 = reasonCode l.reason) ∧
    (field ws 0 2 = p.val ∧ field ws 2 2 = q.requester.state.code ∧ field ws 4 1 = q.mailbox.valid.toNat ∧
      field ws 5 1 = q.mailbox.overrun.toNat ∧ field ws 6 1 = q.ntf.toNat ∧ field ws 8 5 = q.requester.faults % 32 ∧
      field ws 13 3 = q.requester.quarantines % 8 ∧ field ws 16 3 = q.notices % 8 ∧ field ws 24 7 = q.tombstones % 128 ∧
      (q.ntf = true ↔ (∃ t : Tag, q.board[t] ≠ none) ∨ 0 < q.tombstones)) ∧
    (field wf 0 8 = ((f.reason.map (·.code)).getD 0) ∧ field wf 8 3 = f.width % 8 ∧
      field wf 11 1 = directionCode f.dir) ∧
    (reqCode word = field word 0 4 ∧ (reqTag word).val = field word 4 2 ∧
      (∀ m : Mode, reqMode word = some m ↔ field word 6 2 = m.code) ∧ (reqPriority word).val = field word 8 2 ∧
      (reqLease word).val = field word 16 6 ∧ (reqGeneration word).toNat = field word 24 4) ∧
    ([LeaseState.free, .held, .draining, .revoked].map (·.code) = [0, 1, 2, 3] ∧
      [RegionState.invalid, .active, .suspended, .retiring].map (·.code) = [0, 1, 2, 3] ∧
      [RequesterState.offline, .online, .quarantined, .lockedOut].map (·.code) = [0, 1, 2, 3] ∧
      [Mode.shared, .exclusive].map (·.code) = [0, 1] ∧ [Rights.none, .read, .readWrite].map (·.code) = [0, 1, 2] ∧
      [Policy.openAccess, .writeLeased, .allLeased].map (·.code) = [0, 1, 2] ∧
      [PortWidth.w8, .w16, .w32].map (·.code) = [0, 1, 2] ∧ [ReadyMode.internal, .external].map (·.code) = [0, 1] ∧
      [Direction.read, .write].map directionCode = [0, 1] ∧
      [none, some .expired, some .earlyLimit, some .host, some .regionRetired, some .portBarred, some .silent].map
        reasonCode = [0, 1, 2, 3, 4, 5, 6] ∧
      [none, some .revoked, some .free].map drainEndCode = [0, 1, 2] ∧
      [DropReason.timedOut, .regionGone, .portBarred].map (·.code) = [1, 2, 3] ∧
      [AccessState.idle, .waitingBus, .onBus].map (·.code) = [0, 1, 2] ∧
      [TargetState.online, .faulted].map (·.code) = [0, 1] ∧
      [HostResult.ok, .badArg, .wrongState, .inUse, .overlap, .shadowsLease, .notHeld].map (·.code) =
        [0, 1, 2, 3, 4, 5, 6]) ∧
    [ResultCode.ok, .granted, .queued, .conflict, .noSlot, .early, .earlyRevoked, .deniedWaiter, .late, .waitersAhead,
      .noSuchClaim].map (·.code) = [0x00, 0x01, 0x02, 0x03, 0x04, 0x05, 0x06, 0x07, 0x08, 0x09, 0x0A] ∧
    [ResultCode.notLive, .badCommand, .badRange, .regionInactive, .notLeasable, .rights, .tagBusy, .selfOverlap, .stale,
      .notHeld].map (·.code) = [0x10, 0x11, 0x12, 0x13, 0x14, 0x15, 0x16, 0x17, 0x18, 0x19] ∧
    [FaultReason.regionInactive, .rights, .portOffline, .portBarred, .resetting, .align, .mapBoot, .noRegion, .noLease,
      .targetFaulted, .targetTimeout].map (·.code) =
      [0x13, 0x15, 0x20, 0x21, 0x22, 0x23, 0x24, 0x25, 0x26, 0x27, 0x28]

/-! ## Lease commands -/

/-- The common checks of a lease command: while the map is BOOT every code, an undefined one too, is answered NOT_LIVE, and
in LIVE an undefined code is answered BAD_COMMAND; either way only the mailbox changes. (Whether a NOT_LIVE names the lease
is the model's choice, log 14.) -/
def Obligations.LeaseCommandsCommonChecks : Prop :=
  ∀ (s : State) (p : PortId) (be : BitVec 4) (data : Word) (code : Fin 9),
    WindowOpen s p → alignedEnables be = true →
    let n := reqCode (s.port p).request[0]
    let submit : Presentation :=
      { addr := s.mu.windowBase + BitVec.ofNat 32 (0x10 + lowestLane be), dir := .write, be := be, data := data }
    (s.mu.map = .boot → 1 ≤ code → n = code.val →
      ∃ r : Reply, r.code = .notLive ∧ r.data = #v[0#32, 0#32, 0#32] ∧ r.tag = none ∧ r.reason = none ∧
        exec (leaseRow code p be data) s = .next (Answered p r s)) ∧
    (n = 0 ∨ 9 ≤ n →
      exec (.accessArrival p submit) s =
        .next (Answered p { code := if s.mu.map = .boot then .notLive else .badCommand
                            lease := none, tag := none, reason := none, data := #v[0#32, 0#32, 0#32] } s))

/-- A CLAIM with nothing in its way takes the lowest FREE slot as a HELD lease. -/
def Obligations.ClaimIsGrantedAtOnce : Prop :=
  ∀ (s : State) (p : PortId) (be : BitVec 4) (data : Word) (m : Mode) (r : RegionId) (id : LeaseId),
    Submits s p be 1 →
    let w0 := (s.port p).request[0]
    let w2 := (s.port p).request[2]
    let q : AddrRange := { start := (s.port p).request[1], exp := w0.extractLsb' 10 6 }
    reqMode w0 = some m → claimInRange w0 (s.port p).request[1] = true → s.checkClaim p (reqTag w0) q m = .ok r →
    (∀ j : LeaseId, (s.lease j).live = true → conflict (s.lease j).range (s.lease j).mode q m = false) →
    (∀ w ∈ s.le.waiters, conflict w.range w.mode q m = false) →
    (s.lease id).state = .free → (∀ j : LeaseId, j < id → (s.lease j).state ≠ .free) →
    let want := (w2.extractLsb' 0 16).toNat
    let term := if want = 0 ∨ (s.region r).term < want then (s.region r).term else want
    let gen := (s.lease id).generation + 1#4
    let low := s.mgp.slotsLowMark.toNat < s.le.freeSlots ∧ s.le.freeSlots - 1 ≤ s.mgp.slotsLowMark.toNat
    exec (.claim p be data) s =
      .next (Answered p { code := .granted, lease := some (id, gen), tag := none, reason := none
                          data := #v[0#32, 0#32, 0#32] }
        { s with
          le := { s.le with
            leases := s.le.leases.set id
              { generation := gen, state := .held, holder := p, region := r, range := q, mode := m
                priority := min (reqPriority w0) (s.port p).requester.claimCap, term := term, remaining := term
                faults := 0, inFlight := false, reason := none, drainEnd := none }
            freeSlots := s.le.freeSlots - 1 }
          mgp := { s.mgp with flags := if low then s.mgp.flags ||| 0b1000000000#10 else s.mgp.flags } })

/-- A CLAIM's fields out of range give BAD_COMMAND, and its six checks refuse it in order; a refused CLAIM changes only the
mailbox; one that passes them all is weighed for its slot. The first check is MU's decode of the range: to the slot that
contains it with no lower slot of the group over any byte of it, inside one group and clear of the window. (That a lower slot
over all of the range is the answer, where R17 and R102 say BAD_RANGE, is the model's reading, log 30.) -/
def Obligations.ClaimIsRefusedInOrder : Prop :=
  ∀ (s : State) (p : PortId) (be : BitVec 4) (data : Word),
    let w0 := (s.port p).request[0]
    let tag := reqTag w0
    let q : AddrRange := { start := (s.port p).request[1], exp := w0.extractLsb' 10 6 }
    RangeGoes s.mu q (s.mu.decodeRange q) ∧
    (Submits s p be 1 →
    let inRange := 8 ≤ q.exp.toNat ∧ q.exp.toNat ≤ 32 ∧ q.start.toNat % 2 ^ q.exp.toNat = 0 ∧ (reqMode w0).isSome = true
    let answers := fun (c : ResultCode) =>
      exec (.claim p be data) s =
        .next (Answered p { code := c, lease := none, tag := none, reason := none, data := #v[0#32, 0#32, 0#32] } s)
    let busy := (∃ w ∈ s.le.waiters, w.requester = p ∧ w.tag = tag) ∨ ((s.port p).board[tag]).isSome = true
    let overlap :=
      (∃ j : LeaseId, (s.lease j).live = true ∧ (s.lease j).holder = p ∧ (s.lease j).range.overlaps q = true) ∨
      ∃ w ∈ s.le.waiters, w.requester = p ∧ w.range.overlaps q = true
    (claimInRange w0 (s.port p).request[1] = true ↔ inRange) ∧
    (¬inRange → answers .badCommand) ∧
    (inRange → s.mu.decodeRange q = none → answers .badRange) ∧
    (inRange → ∀ r : RegionId, s.mu.decodeRange q = some r →
      let active := (s.region r).state = .active
      let leasable := (s.region r).policy ≠ .openAccess
      let rights := (s.region r).rights[p] = .readWrite ∨
        ((s.region r).rights[p] = .read ∧ reqMode w0 = some .shared)
      (¬active → answers .regionInactive) ∧
      (active → ¬leasable → answers .notLeasable) ∧
      (active → leasable → ¬rights → answers .rights) ∧
      (active → leasable → rights → busy → answers .tagBusy) ∧
      (active → leasable → rights → ¬busy → overlap → answers .selfOverlap) ∧
      (active → leasable → rights → ¬busy → ¬overlap → ∀ m : Mode, reqMode w0 = some m →
        s.checkClaim p tag q m = .ok r)))

/-- A CLAIM that passes its checks and cannot be granted at once: with budget 0 it is answered NO_SLOT where only a slot is
missing and CONFLICT otherwise; with a budget it enters the Wait List behind its equals and ahead of every lower priority,
takes the arrival sequence, and a grant scan follows. -/
def Obligations.ClaimWaitsOrIsTurnedAway : Prop :=
  ∀ (s : State) (p : PortId) (be : BitVec 4) (data : Word) (m : Mode) (r : RegionId),
    Submits s p be 1 →
    let w0 := (s.port p).request[0]
    let w2 := (s.port p).request[2]
    let q : AddrRange := { start := (s.port p).request[1], exp := w0.extractLsb' 10 6 }
    reqMode w0 = some m → claimInRange w0 (s.port p).request[1] = true → s.checkClaim p (reqTag w0) q m = .ok r →
    let blocked :=
      (∃ j : LeaseId, (s.lease j).live = true ∧ conflict (s.lease j).range (s.lease j).mode q m = true) ∨
      ∃ w ∈ s.le.waiters, conflict w.range w.mode q m = true
    let full := ∀ j : LeaseId, (s.lease j).state ≠ .free
    let budget := (w2.extractLsb' 16 16).toNat
    let plain := fun (c : ResultCode) (t : Option Tag) =>
      ({ code := c, lease := none, tag := t, reason := none, data := #v[0#32, 0#32, 0#32] } : Reply)
    (¬blocked → full → budget = 0 → exec (.claim p be data) s = .next (Answered p (plain .noSlot none) s)) ∧
    (blocked → budget = 0 → exec (.claim p be data) s = .next (Answered p (plain .conflict none) s)) ∧
    (blocked ∨ full → budget ≠ 0 →
      let w : Waiter :=
        { requester := p, tag := reqTag w0, region := r, range := q, mode := m
          priority := min (reqPriority w0) (s.port p).requester.claimCap, term := (w2.extractLsb' 0 16).toNat
          budget := budget, arrival := s.le.nextArrival }
      let ahead := s.le.waiters.takeWhile fun v => decide (w.priority ≤ v.priority)
      let behind := s.le.waiters.dropWhile fun v => decide (w.priority ≤ v.priority)
      exec (.claim p be data) s =
        .next (Answered p (plain .queued (some w.tag))
          (State.grantScan
            { s with le := { s.le with waiters := ahead ++ w :: behind, nextArrival := s.le.nextArrival + 1#16 } })))

/-- RENEW by name: STALE, NOT_HELD, EARLY, DENIED_WAITER and OK, each with its effect; an early renewal at the early limit
revokes the lease and counts a fault of the requester, which bars it at the threshold with PORT_QUARANTINED or
PORT_LOCKED_OUT, the revocation and the barring each
followed by a grant scan. A waiter of the requester that the first scan grants is a HELD lease when the barring comes, and is
revoked PORT_BARRED by it. (That STALE and NOT_HELD carry the lease fields is the model's choice, log 14, and so is that the
scan of the barring is made whatever it changed, log 28.) -/
def Obligations.RenewIsWeighed : Prop :=
  ∀ (s : State) (p : PortId) (be : BitVec 4) (data : Word),
    Submits s p be 2 →
    let w0 := (s.port p).request[0]
    let id := reqLease w0
    let gen := reqGeneration w0
    let l := s.lease id
    let d := s.region l.region
    let reply := fun (c : ResultCode) =>
      ({ code := c, lease := some (id, gen), tag := none, reason := none, data := #v[0#32, 0#32, 0#32] } : Reply)
    let early := l.term * d.share < l.remaining * 4
    let denied := d.yield = true ∧ ∃ w ∈ s.le.waiters,
      conflict w.range w.mode l.range l.mode = true ∧ l.priority < w.priority
    let n := (s.port p).requester.faults + 1
    (l.generation ≠ gen → exec (.renew p be data) s = .next (Answered p (reply .stale) s)) ∧
    (l.generation = gen → ¬(l.state = .held ∧ l.holder = p) →
      exec (.renew p be data) s = .next (Answered p (reply .notHeld) s)) ∧
    (l.generation = gen → l.state = .held → l.holder = p →
      (early → l.faults + 1 < d.earlyLimit →
        exec (.renew p be data) s =
          .next (Answered p (reply .early) (SetLease id { l with faults := l.faults + 1 } s))) ∧
      (early → d.earlyLimit ≤ l.faults + 1 → TagsUnique s → ∃ t, exec (.renew p be data) s = .next t ∧
        t.lease id = Revoked .earlyLimit { l with faults := l.faults + 1 } ∧
        t.port p =
          { (Answered p (reply .earlyRevoked) s).port p with
            requester :=
              if n < s.ptc.threshold then { (s.port p).requester with faults := n }
              else Barred s.ptc.limit (s.port p).requester
            board := (t.port p).board, tombstones := (t.port p).tombstones } ∧
        (∀ j : LeaseId, j ≠ id → (s.lease j).state ≠ .free →
          t.lease j =
            (if s.ptc.threshold ≤ n ∧ (s.lease j).state = .held ∧ (s.lease j).holder = p then
              Revoked .portBarred (s.lease j) else s.lease j)) ∧
        (s.ptc.threshold ≤ n → ∀ w ∈ t.le.waiters, w.requester ≠ p) ∧
        t.le.waiters.Sublist s.le.waiters ∧
        (∀ j : LeaseId, (s.lease j).state = .free →
          t.lease j = s.lease j ∨ Granted s t j ∨
            (s.ptc.threshold ≤ n ∧ ∃ w ∈ s.le.waiters, w.requester = p ∧ Left t w ∧ GrantedThenBarred s t w j)) ∧
        (∀ w ∈ s.le.waiters, Left t w → ¬(s.ptc.threshold ≤ n ∧ w.requester = p) →
          ∃ j : LeaseId, GrantedTo s t w j) ∧
        (s.ptc.threshold ≤ n → ∀ w ∈ s.le.waiters, w.requester = p →
          (t.port p).board[w.tag] = some (.dropped .portBarred) ∨ ∃ j : LeaseId, GrantedThenBarred s t w j) ∧
        (l.inFlight = false ∨ s.ptc.threshold ≤ n → ScanDone t) ∧
        t.flagged .portLockedOut = (s.flagged .portLockedOut ||
          decide (s.ptc.threshold ≤ n ∧ (Barred s.ptc.limit (s.port p).requester).state = .lockedOut)) ∧
        t.flagged .portQuarantined = (s.flagged .portQuarantined ||
          decide (s.ptc.threshold ≤ n ∧ (Barred s.ptc.limit (s.port p).requester).state = .quarantined)) ∧
        BoardKept s t p ∧ (∀ q : PortId, q ≠ p → PortKept s t q) ∧
        Quiet s t (if n < s.ptc.threshold then [.slotsLow] else [.slotsLow, .portQuarantined, .portLockedOut])) ∧
      (¬early → denied → exec (.renew p be data) s = .next (Answered p (reply .deniedWaiter) s)) ∧
      (¬early → ¬denied →
        exec (.renew p be data) s =
          .next (Answered p (reply .ok)
            ((SetLease id { l with remaining := l.term } s).updPort p fun q =>
              { q with requester := { q.requester with faults := q.requester.faults - 1 } }))))

/-- RELEASE: a HELD lease of the requester is freed with OK, a tombstone of it with LATE and its reason and one tombstone
fewer, a grant scan following either; any other lease is NOT_HELD or STALE. (That STALE and NOT_HELD carry the lease fields is
the model's choice, log 14.) -/
def Obligations.ReleaseEndsALease : Prop :=
  ∀ (s : State) (p : PortId) (be : BitVec 4) (data : Word),
    Submits s p be 3 →
    let w0 := (s.port p).request[0]
    let id := reqLease w0
    let gen := reqGeneration w0
    let l := s.lease id
    let reply := fun (c : ResultCode) (x : Option RevokeReason) =>
      ({ code := c, lease := some (id, gen), tag := none, reason := x, data := #v[0#32, 0#32, 0#32] } : Reply)
    (l.generation ≠ gen → exec (.release p be data) s = .next (Answered p (reply .stale none) s)) ∧
    (l.generation = gen → l.holder ≠ p ∨ l.state = .free ∨ l.state = .draining →
      exec (.release p be data) s = .next (Answered p (reply .notHeld none) s)) ∧
    (l.generation = gen → l.holder = p → l.state = .held →
      exec (.release p be data) s = .next (Answered p (reply .ok none) (Freed id s).grantScan)) ∧
    (l.generation = gen → l.holder = p → l.state = .revoked →
      exec (.release p be data) s =
        .next (Answered p (reply .late l.reason) (Tombstones p (· - 1) (Freed id s)).grantScan))

/-- UPGRADE makes a SHARED lease EXCLUSIVE in place, or is refused in order; DOWNGRADE makes an EXCLUSIVE lease SHARED, a
grant scan following. Neither changes anything else but the mailbox. (That the replies that refuse carry the lease fields is
the model's choice, log 14.) -/
def Obligations.UpgradeAndDowngrade : Prop :=
  ∀ (s : State) (p : PortId) (be : BitVec 4) (data : Word),
    let w0 := (s.port p).request[0]
    let id := reqLease w0
    let gen := reqGeneration w0
    let l := s.lease id
    let d := s.region l.region
    let reply := fun (c : ResultCode) =>
      ({ code := c, lease := some (id, gen), tag := none, reason := none, data := #v[0#32, 0#32, 0#32] } : Reply)
    let mine := l.generation = gen ∧ l.state = .held ∧ l.holder = p
    let others := ∃ j : LeaseId, (s.lease j).live = true ∧ (s.lease j).holder ≠ p ∧
      (s.lease j).range.overlaps l.range = true
    let waited := ∃ w ∈ s.le.waiters, w.range.overlaps l.range = true
    (Submits s p be 4 →
      (l.generation ≠ gen → exec (.upgrade p be data) s = .next (Answered p (reply .stale) s)) ∧
      (l.generation = gen → ¬mine → exec (.upgrade p be data) s = .next (Answered p (reply .notHeld) s)) ∧
      (mine → l.mode = .exclusive → exec (.upgrade p be data) s = .next (Answered p (reply .ok) s)) ∧
      (mine → l.mode = .shared →
        (d.rights[p] ≠ .readWrite → exec (.upgrade p be data) s = .next (Answered p (reply .rights) s)) ∧
        (d.rights[p] = .readWrite →
          (d.state ≠ .active → exec (.upgrade p be data) s = .next (Answered p (reply .regionInactive) s)) ∧
          (d.state = .active → others → exec (.upgrade p be data) s = .next (Answered p (reply .conflict) s)) ∧
          (d.state = .active → ¬others → waited →
            exec (.upgrade p be data) s = .next (Answered p (reply .waitersAhead) s)) ∧
          (d.state = .active → ¬others → ¬waited →
            exec (.upgrade p be data) s =
              .next (Answered p (reply .ok) (SetLease id { l with mode := .exclusive } s)))))) ∧
    (Submits s p be 5 →
      (l.generation ≠ gen → exec (.downgrade p be data) s = .next (Answered p (reply .stale) s)) ∧
      (l.generation = gen → ¬mine → exec (.downgrade p be data) s = .next (Answered p (reply .notHeld) s)) ∧
      (mine → l.mode = .shared → exec (.downgrade p be data) s = .next (Answered p (reply .ok) s)) ∧
      (mine → l.mode = .exclusive →
        exec (.downgrade p be data) s =
          .next (Answered p (reply .ok) (SetLease id { l with mode := .shared } s).grantScan)))

/-- WITHDRAW removes the requester's waiter of the tag, without a notice, and a grant scan follows; with none it is
answered NO_SUCH_CLAIM. -/
def Obligations.WithdrawRemovesTheWaiter : Prop :=
  ∀ (s : State) (p : PortId) (be : BitVec 4) (data : Word),
    Submits s p be 6 →
    let tag := reqTag (s.port p).request[0]
    let plain := fun (c : ResultCode) =>
      ({ code := c, lease := none, tag := none, reason := none, data := #v[0#32, 0#32, 0#32] } : Reply)
    ((∀ w ∈ s.le.waiters, ¬(w.requester = p ∧ w.tag = tag)) →
      exec (.withdraw p be data) s = .next (Answered p (plain .noSuchClaim) s)) ∧
    ((∃ w ∈ s.le.waiters, w.requester = p ∧ w.tag = tag) →
      exec (.withdraw p be data) s =
        .next (Answered p (plain .ok)
          (State.grantScan { s with le := { s.le with
            waiters := s.le.waiters.filter fun w => !(w.requester == p && w.tag == tag) } })))

/-- QUERY and LOOKUP answer OK with what they name, and change only the mailbox. The own lease LOOKUP names is a live lease of
the requester whose range contains the address. (The model's choices: the generation in the
RESULT of QUERY, log 14; the own lease of lowest slot where a state no run reaches holds several, log 27.) -/
def Obligations.QueryAndLookupOnlyAnswer : Prop :=
  ∀ (s : State) (p : PortId) (be : BitVec 4) (data : Word),
    let id := reqLease (s.port p).request[0]
    let l := s.lease id
    let x := (s.port p).request[1]
    let unit : AddrRange := { start := x &&& 0xFFFFFF00#32, exp := 8#6 }
    let own := fun (j : LeaseId) =>
      ((s.lease j).state = .held ∨ (s.lease j).state = .draining) ∧ (s.lease j).holder = p ∧
      Spans (s.lease j).range.start (s.lease j).range.exp.toNat x
    (Submits s p be 7 → ∃ d0 : Word,
      exec (.query p be data) s =
        .next (Answered p { code := .ok, lease := some (id, l.generation), tag := none, reason := none
                            data := #v[d0, l.range.start, BitVec.ofNat 32 (l.remaining % 65536)] } s) ∧
      field d0 0 2 = l.state.code ∧ field d0 2 4 = l.generation.toNat ∧ field d0 6 2 = l.holder.val ∧
      field d0 8 1 = l.mode.code ∧ field d0 9 6 = l.range.exp.toNat ∧ field d0 16 3 = reasonCode l.reason ∧
      field d0 20 4 = l.faults % 16) ∧
    (Submits s p be 8 → ∃ d0 : Word,
      exec (.lookup p be data) s =
        .next (Answered p { code := .ok, lease := none, tag := none, reason := none
                            data := #v[d0, 0#32, 0#32] } s) ∧
      (∀ r : RegionId, s.mu.decode p .read x = .region r ∨ s.mu.decode p .read x = .inactive r →
        field d0 0 5 = r.val ∧ field d0 5 1 = 1 ∧ field d0 6 2 = (s.region r).state.code ∧
        field d0 8 2 = (s.region r).policy.code ∧ field d0 10 2 = ((s.region r).rights[p]).code) ∧
      (s.mu.decode p .read x = .window ∨ s.mu.decode p .read x = .noRegion → field d0 0 12 = 0) ∧
      (∀ j : LeaseId, own j → (∀ k : LeaseId, k < j → ¬own k) →
        field d0 12 1 = 1 ∧ field d0 13 6 = j.val ∧ field d0 20 4 = (s.lease j).generation.toNat) ∧
      ((∀ j : LeaseId, ¬own j) → field d0 12 12 = 0) ∧
      (field d0 24 2 = 2 ↔ ∃ j : LeaseId, (s.lease j).live = true ∧ (s.lease j).holder ≠ p ∧
        (s.lease j).range.overlaps unit = true ∧ (s.lease j).mode = .exclusive) ∧
      (field d0 24 2 = 0 ↔ ∀ j : LeaseId, (s.lease j).live = true → (s.lease j).holder ≠ p →
        (s.lease j).range.overlaps unit = false) ∧
      field d0 26 5 = (s.le.waiters.countP fun w => w.range.overlaps unit) % 32)

/-! ## Lease time -/

/-- A tick counts every HELD lease and every wait budget down by 1, revokes EXPIRED each lease it brings to 0, raises
LEASE_EXPIRED where it expired one, and drops TIMED_OUT each waiter it brings to 0. One grant scan follows where a lease
became a tombstone or a waiter was dropped, and none otherwise. Where it expires and drops nothing it changes nothing else.
The divider counter is loaded again in the same period. In BOOT there is no tick. (That the row stands for the period in
which the counter reaches 0, wherever the counter stood, is the model's choice, log 19.) -/
def Obligations.TickCountsDown : Prop :=
  ∀ (s : State),
    (s.mu.map = .boot → exec .tick s = .next s) ∧
    (s.mu.map = .live → TermsHold s → TagsUnique s → ∃ t, exec .tick s = .next t ∧
      let loaded : State := { s with divider := (s.mgp.tickDiv.toNat + 1) * 256 }
      let scans :=
        (∃ id : LeaseId, (s.lease id).state = .held ∧ (s.lease id).remaining = 1 ∧ (s.lease id).inFlight = false) ∨
        ∃ w ∈ s.le.waiters, w.budget ≤ 1
      (∀ id : LeaseId, (s.lease id).state = .held →
        t.lease id =
          if (s.lease id).remaining = 1 then Revoked .expired { s.lease id with remaining := 0 }
          else { s.lease id with remaining := (s.lease id).remaining - 1 }) ∧
      (∀ id : LeaseId, (s.lease id).state = .draining ∨ (s.lease id).state = .revoked → t.lease id = s.lease id) ∧
      (∀ id : LeaseId, (s.lease id).state = .free → t.lease id = s.lease id ∨ Granted s t id) ∧
      (t.le.waiters.Sublist
        ((s.le.waiters.filter fun w => decide (2 ≤ w.budget)).map fun w => { w with budget := w.budget - 1 })) ∧
      (∀ w ∈ s.le.waiters, w.budget ≤ 1 → (t.port w.requester).board[w.tag] = some (.dropped .timedOut) ∧ Left t w) ∧
      (∀ w ∈ s.le.waiters, 2 ≤ w.budget → Left t w → ∃ id : LeaseId, GrantedTo s t w id) ∧
      (scans → ScanDone t) ∧
      (¬scans → t.le.waiters = s.le.waiters.map (fun w => { w with budget := w.budget - 1 }) ∧
        ∀ id : LeaseId, (s.lease id).state = .free → t.lease id = s.lease id) ∧
      (∀ p : PortId, t.port p =
        { s.port p with board := (t.port p).board, tombstones := (t.port p).tombstones } ∧ BoardKept s t p) ∧
      t.flagged .leaseExpired = (s.flagged .leaseExpired ||
        allLeases.any fun id => (s.lease id).state == .held && (s.lease id).remaining == 1) ∧
      Quiet loaded t [.leaseExpired, .slotsLow] ∧
      ((∀ id : LeaseId, (s.lease id).state = .held → 2 ≤ (s.lease id).remaining) →
        (∀ w ∈ s.le.waiters, 2 ≤ w.budget) →
        t = { loaded with le := { s.le with
          leases := t.le.leases, waiters := s.le.waiters.map fun w => { w with budget := w.budget - 1 } } } ∧
        ∀ id : LeaseId, (s.lease id).state = .free → t.lease id = s.lease id))

/-- The rows that are parts of larger events act alone where their cause stands (log 4): a lease HELD at 0 expires, a waiter
at 0 is dropped, a DRAINING lease with no access left under it reaches its drain end, the retirement of its slot completing
with it where nothing else of the slot is in flight or draining and a grant scan following, and a retirement completes when
nothing of the slot is in flight or draining; the slot keeps its fields and REGION_RETIRE completes OK. Nothing else changes.
-/
def Obligations.RowsOfLargerEvents : Prop :=
  ∀ (s : State) (id : LeaseId) (p : PortId) (tag : Tag) (r : RegionId),
    let l := s.lease id
    let idle := ∀ q : PortId, (s.port q).access.state = .idle ∨ (s.port q).access.lease ≠ some (id, l.generation)
    let retired := fun (r : RegionId) (u : State) =>
      ({ u with
        mu := { u.mu with regions := u.mu.regions.set r { u.region r with state := .invalid } }
        mgp := { u.mgp with hostStatus := { code := 6#4, result := .ok }, unit := .idle
                            flags := u.mgp.flags ||| 0b0000000100#10 } } : State)
    (l.state = .held → l.remaining = 0 → l.inFlight = false →
      exec (.leaseExpiry id) s =
        .next (Tombstones l.holder (· + 1) (SetLease id { l with state := .revoked, reason := some .expired }
          { s with mgp := { s.mgp with flags := s.mgp.flags ||| 0b0100000000#10 } })).grantScan) ∧
    (l.state = .held → l.remaining = 0 → l.inFlight = true →
      exec (.leaseExpiry id) s =
        .next (SetLease id { l with state := .draining, reason := some .expired, drainEnd := some .revoked }
          { s with mgp := { s.mgp with flags := s.mgp.flags ||| 0b0100000000#10 } })) ∧
    (¬(l.state = .held ∧ l.remaining = 0) → exec (.leaseExpiry id) s = .next s) ∧
    (∀ w ∈ s.le.waiters, w.requester = p → w.tag = tag → w.budget = 0 →
      exec (.waitBudgetExpiry p tag) s =
        .next (State.grantScan
          ({ s with le := { s.le with
              waiters := s.le.waiters.filter fun w => !(w.requester == p && w.tag == tag && w.budget == 0) } }.updPort p
            fun q => { q with board := q.board.set tag (some (.dropped .timedOut)) }))) ∧
    ((∀ w ∈ s.le.waiters, ¬(w.requester = p ∧ w.tag = tag ∧ w.budget = 0)) →
      exec (.waitBudgetExpiry p tag) s = .next s) ∧
    (l.state = .draining → idle →
      let completes := (s.region l.region).state = .retiring ∧ (s.region l.region).inFlight = 0 ∧
        ∀ j : LeaseId, j ≠ id → ¬((s.lease j).state = .draining ∧ (s.lease j).region = l.region)
      let tested := fun (u : State) => if completes then retired l.region u else u
      (l.drainEnd = some .revoked →
        exec (.leaseDrainEnd id) s =
          .next (tested (Tombstones l.holder (· + 1)
            (SetLease id { l with state := .revoked, inFlight := false, drainEnd := none } s))).grantScan) ∧
      (l.drainEnd = some .free → exec (.leaseDrainEnd id) s = .next (tested (Freed id s)).grantScan)) ∧
    (¬(l.state = .draining ∧ idle) → exec (.leaseDrainEnd id) s = .next s) ∧
    let done := (s.region r).state = .retiring ∧ (s.region r).inFlight = 0 ∧
      ∀ j : LeaseId, ¬((s.lease j).state = .draining ∧ (s.lease j).region = r)
    (done → exec (.retireCompletion r) s = .next (retired r s)) ∧
    (¬done → exec (.retireCompletion r) s = .next s)

/-! ## The shared bus -/

/-- The arbiter grants the bus to the port it picks, moves the pointer of its level, and starts the first device cycle; a
pick whose target is FAULTED ends the access TARGET_FAULTED, the bus staying FREE; with the bus HELD or none waiting there
is no decision, and the command changes nothing (the model's choice, log 3). -/
def Obligations.BusGrantDecision : Prop :=
  ∀ (s : State) (l : Priority) (p : PortId),
    (s.bsq.hold ≠ none ∨ (∀ q : PortId, (s.port q).access.state ≠ .waitingBus) →
      exec .busGrantDecision s = .next s) ∧
    (s.bsq.hold = none → Picked s l p →
      let moved : State := { s with bsq := { s.bsq with pointers := s.bsq.pointers.set l p } }
      ((s.target (s.port p).access.cycle.target).state = .online →
        exec .busGrantDecision s =
          .next
            ({ s with bsq := { s.bsq with
                pointers := s.bsq.pointers.set l p
                hold := some { port := p, periods := 0, timeout := (s.bsq.busTimeout.toNat + 1) * 16
                               readData := 0#32 } } }.updPort p
              fun q => { q with access := { q.access with state := .onBus } })) ∧
      ((s.target (s.port p).access.cycle.target).state = .faulted → TagsUnique s →
        ∃ t, exec .busGrantDecision s = .next t ∧ Ended moved t p .busError (some .targetFaulted)))

/-- While the bus is HELD the select of the cycle's target is asserted, and the device bus shows the cycle's address and
direction and, for a write, the bytes of the cycle's own addresses from the captured write data; while it is FREE no target
is selected. The device cycle on the bus completes: the target's consecutive count is 0, cycles done rises, and a read's
bytes are held in the lanes of their addresses (the lanes are the model's choice, log 11 and log 12; that the outputs are
views, log 17). Before the last cycle the next one starts with the timeout loaded afresh, or the access ends TARGET_FAULTED
where its target is FAULTED; the last one ends the access with its answer. With no cycle on the bus nothing happens (log 3).
-/
def Obligations.DeviceCycleCompletes : Prop :=
  ∀ (s : State) (data : Word),
    (s.bsq.hold = none → exec (.deviceCycleComplete data) s = .next s ∧ s.selected = none ∧ s.deviceBus = none) ∧
    ∀ h : BusHold, s.bsq.hold = some h →
      let a := (s.port h.port).access
      let c := min a.width a.cycle.width.bytes
      let at' := a.addr + BitVec.ofNat 32 (a.cyclesDone * c)
      let lanes := transferEnables at' c
      let got := if a.dir = .read then
          (h.readData &&& ~~~(laneMask lanes)) ||| (data <<< (8 * (at'.toNat % 4)) &&& laneMask lanes)
        else h.readData
      let last := a.width ≤ a.cycle.width.bytes ∨ a.width / a.cycle.width.bytes ≤ a.cyclesDone + 1
      let counted :=
        (s.updPort h.port fun q => { q with access := { q.access with cyclesDone := q.access.cyclesDone + 1 } }).updTarget
          a.cycle.target fun t => { t with consecutive := 0 }
      s.selected = some a.cycle.target ∧
      s.deviceBus = some (at', a.dir, if a.dir = .write then a.data &&& laneMask lanes else 0#32) ∧
      (∀ i : Fin 4, lanes.getLsbD i.val = decide (at'.toNat % 4 ≤ i.val ∧ i.val < at'.toNat % 4 + c)) ∧
      (¬last → (s.target a.cycle.target).state = .online →
        exec (.deviceCycleComplete data) s =
          .next { counted with bsq := { counted.bsq with
            hold := some { port := h.port, periods := 0, timeout := (s.bsq.busTimeout.toNat + 1) * 16
                           readData := got } } }) ∧
      (s.mgp.unit ≠ .softResetting → TagsUnique s →
        (¬last → (s.target a.cycle.target).state = .faulted →
          ∃ t, exec (.deviceCycleComplete data) s = .next t ∧ Ended counted t h.port .busError (some .targetFaulted)) ∧
        (last → ∃ t, exec (.deviceCycleComplete data) s = .next t ∧
          Ended counted t h.port (if a.dir = .read then .readData got else .writeDone) none)) ∧
      (s.mgp.unit = .softResetting → RetireAgrees s → (∀ q : PortId, (s.port q).access.state ≠ .waitingBus) →
        last ∨ (s.target a.cycle.target).state = .faulted →
        ∃ t, exec (.deviceCycleComplete data) s = .next t ∧ SoftResetDone counted t (fun q => q = h.port) ∧
          (∀ q : PortId, q ≠ h.port → (t.port q).answer = (s.port q).answer) ∧
          (t.port h.port).answer =
            if a.orphaned then (s.port h.port).answer
            else if last then some (if a.dir = .read then .readData got else .writeDone)
            else some .busError)

/-- A device cycle that times out ends its access TARGET_TIMEOUT: the target's counts and last timeout address, the two
events, the bus error and last-fault record unless orphaned, and the bus FREE. An INTERNAL cycle never times out; there, and
with no cycle on the bus, the command changes nothing (the model's choice, log 3). -/
def Obligations.CycleTimeoutCountsAgainstTheTarget : Prop :=
  ∀ (s : State),
    (s.bsq.hold = none → exec .busTimeoutExpiry s = .next s) ∧
    ∀ h : BusHold, s.bsq.hold = some h →
      let a := (s.port h.port).access
      let x := a.cycle.target
      let k := min 15 ((s.target x).consecutive + 1)
      let faults := 1 ≤ (s.target x).limit ∧ (s.target x).limit ≤ k
      let counted :=
        { s with mgp := { s.mgp with
            flags := s.mgp.flags ||| (if faults then 0b0000110000#10 else 0b0000010000#10) } }.updTarget x fun r =>
          { r with state := if faults then .faulted else r.state, consecutive := k, total := min 65535 (r.total + 1)
                   lastTimeout := a.addr + BitVec.ofNat 32 (a.cyclesDone * min a.width a.cycle.width.bytes) }
      (a.cycle.ready = .internal → exec .busTimeoutExpiry s = .next s) ∧
      (a.cycle.ready = .external → s.mgp.unit ≠ .softResetting → TagsUnique s →
        ∃ t, exec .busTimeoutExpiry s = .next t ∧ Ended counted t h.port .busError (some .targetTimeout)) ∧
      (a.cycle.ready = .external → s.mgp.unit = .softResetting → RetireAgrees s →
        (∀ q : PortId, (s.port q).access.state ≠ .waitingBus) →
        ∃ t, exec .busTimeoutExpiry s = .next t ∧ SoftResetDone counted t (fun q => q = h.port) ∧
          (∀ q : PortId, q ≠ h.port → (t.port q).answer = (s.port q).answer) ∧
          (t.port h.port).answer = if a.orphaned then (s.port h.port).answer else some .busError)

/-- The completion of a soft reset, where one runs, the bus is FREE and no port waits: all leases FREE with their
generations, no waiter, every port cleared to its starting state unless LOCKED_OUT, targets ONLINE, pointers P3, and the
map and configuration kept. (The model's choices: the write data of a reset access record, log 15; that the row acts alone
where a completion is due, log 4, and changes nothing where none is, log 3; that the scans asked for by REGION_RESUME are
kept, log 18.) -/
def Obligations.SoftResetCompletes : Prop :=
  ∀ (s : State),
    let due := s.mgp.unit = .softResetting ∧ s.bsq.hold = none ∧
      ∀ p : PortId, (s.port p).access.state ≠ .waitingBus
    (¬due → exec .softResetCompletion s = .next s) ∧
    (due → ∃ t, exec .softResetCompletion s = .next t ∧
      (∀ id : LeaseId, t.lease id =
        { generation := (s.lease id).generation, state := .free, holder := 0, region := 0
          range := { start := 0#32, exp := 8#6 }, mode := .shared, priority := 0, term := 0, remaining := 0
          faults := 0, inFlight := false, reason := none, drainEnd := none }) ∧
      t.le.freeSlots = 64 ∧ t.le.waiters = [] ∧ t.le.nextArrival = 0#16 ∧ t.le.resumeScans = s.le.resumeScans ∧
      t.freeDraws = s.freeDraws ∧
      (∀ p : PortId, t.port p =
        { s.port p with
          requester := { (s.port p).requester with
            faults := 0
            state := if (s.port p).requester.state = .lockedOut then .lockedOut
              else if p = 0 then .online else .offline }
          access := { state := .idle, addr := 0#32, dir := .read, width := 0, data := 0#32, region := none
                      lease := none, cycle := { target := 0, width := .w8, waits := 0#4, ready := .internal }
                      cyclesDone := 0, orphaned := false }
          request := #v[0#32, 0#32, 0#32, 0#32]
          mailbox := { result := 0#32, data := #v[0#32, 0#32, 0#32], valid := false, overrun := false }
          board := #v[none, none, none, none], tombstones := 0
          lastFault := { reason := none, addr := 0#32, dir := .read, width := 0 } }) ∧
      (∀ r : RegionId, t.region r = { s.region r with inFlight := 0 }) ∧
      t.mu.map = s.mu.map ∧ t.mu.windowBase = s.mu.windowBase ∧ t.mu.groups = s.mu.groups ∧
      (∀ x : TargetId, t.target x = { s.target x with state := .online, consecutive := 0 }) ∧
      (∀ l : Priority, t.bsq.pointers[l] = 3) ∧ t.bsq.hold = none ∧ t.bsq.busTimeout = s.bsq.busTimeout ∧
      t.ptc.threshold = s.ptc.threshold ∧ t.ptc.limit = s.ptc.limit ∧ t.divider = s.divider ∧
      t.mgp = { s.mgp with hostStatus := { code := 13#4, result := .ok }, unit := .idle
                           flags := s.mgp.flags ||| 0b0000000100#10 })

/-! ## The grant scan -/

/-- What a grant scan does: the waiters that stay keep their order and fields; only FREE slots change, each into a HELD lease
of a waiter whose notice is placed; each waiter that leaves is granted so, into the lowest FREE slot that no waiter ahead of
it was granted; no waiter is granted that conflicts with one ahead of it still in the list; no waiter is left that could be
granted; a lease is live that is HELD or DRAINING, and two ranges conflict where they share a byte and one of the modes is
EXCLUSIVE; and nothing else changes but SLOTS_LOW, raised at the crossing of the mark. -/
def Obligations.GrantScanServesInOrder : Prop :=
  ∀ (s : State) (q q' : AddrRange) (m m' : Mode) (l : Lease), TagsUnique s →
    let t := s.grantScan
    (q.overlaps q' = true ↔ Meets q.start q.exp.toNat q') ∧ (l.live = true ↔ l.state = .held ∨ l.state = .draining) ∧
    (conflict q m q' m' = true ↔ Meets q.start q.exp.toNat q' ∧ (m = .exclusive ∨ m' = .exclusive)) ∧
    t.le.waiters.Sublist s.le.waiters ∧
    (∀ id : LeaseId, (s.lease id).state ≠ .free → t.lease id = s.lease id) ∧
    (∀ id : LeaseId, (s.lease id).state = .free → t.lease id = s.lease id ∨ Granted s t id) ∧
    (∀ (pre post : List Waiter) (w : Waiter), s.le.waiters = pre ++ w :: post → Left t w →
      ∃ id : LeaseId, (s.lease id).state = .free ∧ GrantedTo s t w id ∧
        ∀ j : LeaseId, j < id → (s.lease j).state = .free → ∃ v ∈ pre, Left t v ∧ GrantedTo s t v j) ∧
    (∀ (pre post : List Waiter) (w : Waiter), s.le.waiters = pre ++ w :: post → Left t w →
      (s.region w.region).state ≠ .suspended ∧
      ∀ v ∈ pre, v ∈ t.le.waiters → conflict v.range v.mode w.range w.mode = false) ∧
    ScanDone t ∧
    (∀ p : PortId, PortKept s t p) ∧ Quiet s t [.slotsLow] ∧
    t.flagged .slotsLow = (s.flagged .slotsLow ||
      (decide (s.mgp.slotsLowMark.toNat < s.le.freeSlots) && decide (t.le.freeSlots ≤ s.mgp.slotsLowMark.toNat)))

/-! ## Host commands -/

/-- A host command whose code is written while the unit runs is not taken: CMD_REJECT is raised and nothing else changes. A
code that names no command completes with BAD_ARG, and so does a command with a numbered argument above its range, with
no other change. -/
def Obligations.RunningUnitRejects : Prop :=
  ∀ (s : State) (code : Fin 14) (v : Word),
    let rejected : Host.Outcome State Fault Refusal :=
      .next { s with mgp := { s.mgp with flags := s.mgp.flags ||| 0b0000001000#10 } }
    let range := if code.val = 2 ∨ (8 ≤ code.val ∧ code.val ≤ 11) then 4 else if code.val = 12 then 8
      else if code.val = 7 then 64 else 32
    (s.mgp.unit ≠ .idle →
      exec (.registerWrite 9#7 v) s = rejected ∧ (1 ≤ code → exec (hostRow code) s = rejected)) ∧
    (s.mgp.unit = .idle →
      (v.extractLsb' 0 4 = 0#4 ∨ 14 ≤ (v.extractLsb' 0 4).toNat →
        exec (.registerWrite 9#7 v) s = .next { s with mgp := Completed (v.extractLsb' 0 4) .badArg s.mgp }) ∧
      (2 ≤ code → code ≠ 13 → range ≤ (s.mgp.hostArg.extractLsb' 0 8).toNat →
        exec (hostRow code) s = .next { s with mgp := Completed (BitVec.ofNat 4 code.val) .badArg s.mgp }))

/-- GO_LIVE makes the map LIVE and loads the divider with one full tick period; in LIVE it gives WRONG_STATE. -/
def Obligations.GoLiveStartsTheMap : Prop :=
  ∀ (s : State), s.mgp.unit = .idle →
    (s.mu.map = .boot → exec .goLive s =
      .next { s with mu := { s.mu with map := .live }, divider := (s.mgp.tickDiv.toNat + 1) * 256
                     mgp := Completed 1#4 .ok s.mgp }) ∧
    (s.mu.map = .live → exec .goLive s = .next { s with mgp := Completed 1#4 .wrongState s.mgp })

/-- GROUP_SET: BAD_ARG, IN_USE and OVERLAP in order, else the staged record is stored. -/
def Obligations.GroupSetStoresTheStagedGroup : Prop :=
  ∀ (s : State), s.mgp.unit = .idle →
    (3 < (s.mgp.hostArg.extractLsb' 0 8).toNat →
      exec .groupSet s = .next { s with mgp := Completed 2#4 .badArg s.mgp }) ∧
    ∀ g : GroupId, (s.mgp.hostArg.extractLsb' 0 8).toNat = g.val →
      let w := s.mgp.groupStage
      let staged : Group := { valid := w.getLsbD 0, exp := w.extractLsb' 8 6, base := w &&& 0xFFFF0000#32 }
      let good := staged.valid = false ∨
        (16 ≤ staged.exp.toNat ∧ staged.exp.toNat ≤ 32 ∧ staged.base.toNat % 2 ^ staged.exp.toNat = 0)
      let used := ∃ r : RegionId, groupOf r = g ∧ (s.region r).state ≠ .invalid
      let overlap := staged.valid = true ∧ ∃ h : GroupId, h ≠ g ∧ (s.mu.groups[h]).valid = true ∧
        (s.mu.groups[h]).extent.overlaps staged.extent = true
      (¬good → exec .groupSet s = .next { s with mgp := Completed 2#4 .badArg s.mgp }) ∧
      (good → used → exec .groupSet s = .next { s with mgp := Completed 2#4 .inUse s.mgp }) ∧
      (good → ¬used → overlap → exec .groupSet s = .next { s with mgp := Completed 2#4 .overlap s.mgp }) ∧
      (good → ¬used → ¬overlap → exec .groupSet s =
        .next { s with mu := { s.mu with groups := s.mu.groups.set g staged }, mgp := Completed 2#4 .ok s.mgp })

/-- REGION_COMMIT: its checks in order, and the staged descriptor installed, an INVALID slot becoming ACTIVE; what the staging
words hold, field by field, and when a descriptor fits its slot. -/
def Obligations.RegionCommitInstalls : Prop :=
  ∀ (s : State) (r : RegionId), s.mgp.unit = .idle → (s.mgp.hostArg.extractLsb' 0 8).toNat = r.val →
    let old := s.region r
    let group := s.mu.groups[groupOf r]
    let wrong := old.state = .retiring ∨ (old.state = .invalid ∧ group.valid = false)
    let staged := stagedRegion s.mgp.regionStage[0] s.mgp.regionStage[1] s.mgp.regionStage[2]
    (staged = none ↔ Undescribed s.mgp.regionStage[1] s.mgp.regionStage[2]) ∧
    (∀ d : Region, staged = some d →
      Describes s.mgp.regionStage[0] s.mgp.regionStage[1] s.mgp.regionStage[2] d ∧
      (fitsGroup group d = true ↔ group.valid = true ∧ 8 ≤ d.exp.toNat ∧ d.exp.toNat ≤ group.exp.toNat ∧
        d.offset.toNat % 2 ^ d.exp.toNat = 0 ∧ d.offset.toNat + 2 ^ d.exp.toNat ≤ 2 ^ group.exp.toNat)) ∧
    (wrong → exec .regionCommit s = .next { s with mgp := Completed 3#4 .wrongState s.mgp }) ∧
    (¬wrong → (∀ d : Region, staged = some d → fitsGroup group d = false) →
      exec .regionCommit s = .next { s with mgp := Completed 3#4 .badArg s.mgp }) ∧
    (¬wrong → ∀ d : Region, staged = some d → fitsGroup group d = true →
      let same := d.offset = old.offset ∧ d.exp = old.exp ∧ d.cycle.target = old.cycle.target ∧
        d.cycle.width = old.cycle.width ∧ d.rights = old.rights ∧ d.policy = old.policy ∧ d.term = old.term
      let used := (∃ id : LeaseId, (s.lease id).live = true ∧ (s.lease id).region = r) ∨
        (∃ w ∈ s.le.waiters, w.region = r) ∨ 0 < old.inFlight
      let higher := fun (r' : RegionId) => r < r' ∧ groupOf r' = groupOf r
      let shadows := (∃ id : LeaseId, (s.lease id).live = true ∧ higher (s.lease id).region ∧
          (s.lease id).range.overlaps (d.extent group) = true) ∨
        ∃ w ∈ s.le.waiters, higher w.region ∧ w.range.overlaps (d.extent group) = true
      let inUse := old.state ≠ .invalid ∧ used ∧ ¬same
      (inUse → exec .regionCommit s = .next { s with mgp := Completed 3#4 .inUse s.mgp }) ∧
      (¬inUse → shadows → exec .regionCommit s = .next { s with mgp := Completed 3#4 .shadowsLease s.mgp }) ∧
      let stored := { d with
        state := if old.state = .invalid then .active else old.state, inFlight := old.inFlight }
      (¬inUse → ¬shadows → exec .regionCommit s =
        .next { s with mu := { s.mu with regions := s.mu.regions.set r stored }, mgp := Completed 3#4 .ok s.mgp }))

/-- REGION_SUSPEND moves an ACTIVE slot to SUSPENDED; REGION_RESUME moves a SUSPENDED slot to ACTIVE and asks LE for a grant
scan, taken as an event of its own; any other state gives WRONG_STATE. (That the scans asked for are counted is log 18, and
that a scan nothing asked for changes nothing is the model's choice, log 3.) -/
def Obligations.SuspendAndResume : Prop :=
  ∀ (s : State) (r : RegionId),
    (s.mgp.unit = .idle → (s.mgp.hostArg.extractLsb' 0 8).toNat = r.val →
      ((s.region r).state = .active → exec .regionSuspend s =
        .next { s with mu := { s.mu with regions := s.mu.regions.set r { s.region r with state := .suspended } }
                       mgp := Completed 4#4 .ok s.mgp }) ∧
      ((s.region r).state ≠ .active →
        exec .regionSuspend s = .next { s with mgp := Completed 4#4 .wrongState s.mgp }) ∧
      ((s.region r).state = .suspended → exec .regionResume s =
        .next { s with mu := { s.mu with regions := s.mu.regions.set r { s.region r with state := .active } }
                       le := { s.le with resumeScans := s.le.resumeScans + 1 }
                       mgp := Completed 5#4 .ok s.mgp }) ∧
      ((s.region r).state ≠ .suspended →
        exec .regionResume s = .next { s with mgp := Completed 5#4 .wrongState s.mgp })) ∧
    (s.le.resumeScans = 0 → exec .resumeGrantScan s = .next s) ∧
    (∀ n : Nat, s.le.resumeScans = n + 1 →
      exec .resumeGrantScan s = .next (State.grantScan { s with le := { s.le with resumeScans := n } }))

/-- REGION_RETIRE revokes every HELD lease of the slot, drops its waiters REGION_GONE, one grant scan following where
anything was removed, and leaves the unit RUNNING until nothing of the slot is in flight or draining; on an INVALID or
RETIRING slot it gives WRONG_STATE. -/
def Obligations.RegionRetireEmptiesTheSlot : Prop :=
  ∀ (s : State) (r : RegionId), s.mgp.unit = .idle → (s.mgp.hostArg.extractLsb' 0 8).toNat = r.val → TagsUnique s →
    let old := s.region r
    let waits := 0 < old.inFlight ∨ ∃ id : LeaseId, (s.lease id).region = r ∧
      ((s.lease id).state = .draining ∨ ((s.lease id).state = .held ∧ (s.lease id).inFlight = true))
    (old.state = .invalid ∨ old.state = .retiring →
      exec .regionRetire s = .next { s with mgp := Completed 6#4 .wrongState s.mgp }) ∧
    (old.state = .active ∨ old.state = .suspended → ∃ t, exec .regionRetire s = .next t ∧
      t.mu = { s.mu with regions := s.mu.regions.set r { old with state := if waits then .retiring else .invalid } } ∧
      (∀ id : LeaseId, (s.lease id).state = .held → (s.lease id).region = r →
        t.lease id = Revoked .regionRetired (s.lease id)) ∧
      (∀ id : LeaseId, (s.lease id).state ≠ .free → ¬((s.lease id).state = .held ∧ (s.lease id).region = r) →
        t.lease id = s.lease id) ∧
      (∀ w ∈ s.le.waiters, w.region = r →
        (t.port w.requester).board[w.tag] = some (.dropped .regionGone) ∧ Left t w) ∧
      (∀ w ∈ t.le.waiters, w.region ≠ r) ∧ Scanned s t (fun w => w.region = r) ∧
      ((∃ id : LeaseId, (s.lease id).state = .held ∧ (s.lease id).region = r ∧ (s.lease id).inFlight = false) ∨
        (∃ w ∈ s.le.waiters, w.region = r) → ScanDone t) ∧
      (∀ p : PortId, t.port p =
        { s.port p with board := (t.port p).board, tombstones := (t.port p).tombstones } ∧ BoardKept s t p) ∧
      (waits → Quiet { s with mu := t.mu, mgp := { s.mgp with hostCmd := 6#4, unit := .retiring r } } t [.slotsLow]) ∧
      (¬waits → Quiet { s with mu := t.mu, mgp := Completed 6#4 .ok s.mgp } t [.slotsLow]))

/-- LEASE_REVOKE revokes the named HELD lease with reason HOST, into DRAINING with an access in flight and else into a
tombstone with a grant scan; any other lease is NOT_HELD, and an argument that names no slot gives BAD_ARG. -/
def Obligations.LeaseRevokeRevokesOneLease : Prop :=
  ∀ (s : State), s.mgp.unit = .idle →
    (63 < (s.mgp.hostArg.extractLsb' 0 8).toNat →
      exec .leaseRevoke s = .next { s with mgp := Completed 7#4 .badArg s.mgp }) ∧
    ∀ id : LeaseId, (s.mgp.hostArg.extractLsb' 0 8).toNat = id.val →
      let l := s.lease id
      let named := l.generation = s.mgp.hostArg.extractLsb' 8 4 ∧ l.state = .held
      (¬named → exec .leaseRevoke s = .next { s with mgp := Completed 7#4 .notHeld s.mgp }) ∧
      (named → TagsUnique s → ∃ t, exec .leaseRevoke s = .next t ∧
        t.lease id = Revoked .host l ∧
        (∀ j : LeaseId, j ≠ id → (s.lease j).state ≠ .free → t.lease j = s.lease j) ∧
        Scanned s t (fun _ => False) ∧ (l.inFlight = false → ScanDone t) ∧
        (∀ p : PortId, p ≠ l.holder ∨ l.inFlight = true → PortKept s t p) ∧
        t.port l.holder = { s.port l.holder with
          board := (t.port l.holder).board
          tombstones := (s.port l.holder).tombstones + if l.inFlight then 0 else 1 } ∧
        BoardKept s t l.holder ∧
        (l.inFlight = true → t.le.waiters = s.le.waiters) ∧
        Quiet { s with mgp := Completed 7#4 .ok s.mgp } t [.slotsLow])

/-- PORT_ONLINE makes an OFFLINE requester ONLINE and PORT_RESTORE a QUARANTINED one, its fault count 0; nothing else
changes, any other state gives WRONG_STATE, and an argument above 3 gives BAD_ARG. -/
def Obligations.PortOnlineAndRestore : Prop :=
  ∀ (s : State), s.mgp.unit = .idle →
    (3 < (s.mgp.hostArg.extractLsb' 0 8).toNat →
      exec .portOnline s = .next { s with mgp := Completed 8#4 .badArg s.mgp } ∧
      exec .portRestore s = .next { s with mgp := Completed 10#4 .badArg s.mgp }) ∧
    ∀ p : PortId, (s.mgp.hostArg.extractLsb' 0 8).toNat = p.val →
      let q := (s.port p).requester
      (q.state = .offline → exec .portOnline s =
        .next ({ s with mgp := Completed 8#4 .ok s.mgp }.updPort p
          fun x => { x with requester := { q with state := .online } })) ∧
      (q.state ≠ .offline → exec .portOnline s = .next { s with mgp := Completed 8#4 .wrongState s.mgp }) ∧
      (q.state = .quarantined → exec .portRestore s =
        .next ({ s with mgp := Completed 10#4 .ok s.mgp }.updPort p
          fun x => { x with requester := { q with state := .online, faults := 0 } })) ∧
      (q.state ≠ .quarantined → exec .portRestore s = .next { s with mgp := Completed 10#4 .wrongState s.mgp })

/-- PORT_OFFLINE takes an ONLINE or QUARANTINED requester out of service with everything it held, keeping its access, its
quarantine count and its configuration; any other state gives WRONG_STATE. -/
def Obligations.PortOfflineClearsTheRequester : Prop :=
  ∀ (s : State) (p : PortId), s.mgp.unit = .idle → (s.mgp.hostArg.extractLsb' 0 8).toNat = p.val →
    let x := (s.port p).requester.state
    (x = .offline ∨ x = .lockedOut →
      exec .portOffline s = .next { s with mgp := Completed 9#4 .wrongState s.mgp }) ∧
    (x = .online ∨ x = .quarantined → TagsUnique s → ∃ t, exec .portOffline s = .next t ∧
      t.port p =
        { s.port p with
          requester := { (s.port p).requester with state := .offline, faults := 0 }
          board := #v[none, none, none, none], tombstones := 0
          mailbox := { result := 0#32, data := #v[0#32, 0#32, 0#32], valid := false, overrun := false }
          request := #v[0#32, 0#32, 0#32, 0#32]
          lastFault := { reason := none, addr := 0#32, dir := .read, width := 0 } } ∧
      Cleared s t p ∧ Quiet { s with mgp := Completed 9#4 .ok s.mgp } t [.slotsLow])

/-- PURGE frees every tombstone of the requester and empties its notice board, with OK where there was either and NOT_HELD
where there was neither; no HELD or DRAINING lease, no waiter and no other record of a port changes, but for what the grant
scan grants that follows where a slot was freed. -/
def Obligations.PurgeReclaimsTombstones : Prop :=
  ∀ (s : State) (p : PortId), s.mgp.unit = .idle → (s.mgp.hostArg.extractLsb' 0 8).toNat = p.val →
    let tomb := fun (id : LeaseId) => (s.lease id).state = .revoked ∧ (s.lease id).holder = p
    let found := (∃ id : LeaseId, tomb id) ∨ ∃ tag : Tag, (s.port p).board[tag] ≠ none
    ((∀ id : LeaseId, ¬tomb id) → exec .purge s =
      .next ({ s with mgp := Completed 11#4 (if found then .ok else .notHeld) s.mgp }.updPort p
        fun q => { q with board := #v[none, none, none, none] })) ∧
    ((∃ id : LeaseId, tomb id) → CountsAgree s → TagsUnique s → ∃ t, exec .purge s = .next t ∧
      (∀ id : LeaseId, tomb id → t.lease id = Lease.freeWith (s.lease id).generation ∨ Granted s t id) ∧
      (∀ id : LeaseId, ¬tomb id → (s.lease id).state ≠ .free → t.lease id = s.lease id) ∧
      Scanned s t (fun _ => False) ∧ ScanDone t ∧
      t.port p = { s.port p with tombstones := 0, board := (t.port p).board } ∧
      (∀ tag : Tag, (t.port p).board[tag] = none ∨
        ∃ (w : Waiter) (id : LeaseId), w ∈ s.le.waiters ∧ w.requester = p ∧ w.tag = tag ∧ Left t w ∧
          (t.port p).board[tag] = some (.granted id (t.lease id).generation)) ∧
      (∀ q : PortId, q ≠ p → PortKept s t q) ∧
      Quiet { s with mgp := Completed 11#4 .ok s.mgp } t [.slotsLow])

/-- TARGET_CLEAR sets the target ONLINE with consecutive count 0, whatever its state, and keeps the rest of its record. -/
def Obligations.TargetClearReturnsTheTarget : Prop :=
  ∀ (s : State) (x : TargetId), s.mgp.unit = .idle →
    ((s.mgp.hostArg.extractLsb' 0 8).toNat = x.val → exec .targetClear s =
      .next { s with
        bsq := { s.bsq with targets := s.bsq.targets.set x { s.target x with state := .online, consecutive := 0 } }
        mgp := Completed 12#4 .ok s.mgp }) ∧
    (7 < (s.mgp.hostArg.extractLsb' 0 8).toNat →
      exec .targetClear s = .next { s with mgp := Completed 12#4 .badArg s.mgp })

/-- SOFT_RESET: with an access on the bus and none waiting it only leaves the unit RUNNING (and draws the free value of
log 10); with waiting accesses each ends RESETTING, in its four steps, but for the order of the ends; with the bus FREE the
waiting accesses end so and the soft reset completes in the same event. (That the scans asked for by REGION_RESUME are kept is
the model's, log 18.) -/
def Obligations.SoftResetStarts : Prop :=
  ∀ (s : State), s.mgp.unit = .idle → RetireAgrees s →
    let waits := fun (p : PortId) => (s.port p).access.state = .waitingBus
    let named := fun (id : LeaseId) => ∃ p, waits p ∧ (s.port p).access.lease = some (id, (s.lease id).generation)
    let asked : State := { s with mgp := { s.mgp with hostCmd := 13#4 }, freeDraws := s.freeDraws + 1 }
    (s.bsq.hold ≠ none → (∀ p : PortId, ¬waits p) → exec .softReset s =
      .next { s with mgp := { s.mgp with hostCmd := 13#4, unit := .softResetting }, freeDraws := s.freeDraws + 1 }) ∧
    (s.bsq.hold ≠ none → InFlightAgrees s → ∃ t, exec .softReset s = .next t ∧
      t.mgp = { s.mgp with hostCmd := 13#4, unit := .softResetting, flags := t.mgp.flags } ∧ t.bsq = s.bsq ∧
      (∀ e : Event, e ≠ .slotsLow → t.flagged e = s.flagged e) ∧
      (∀ p : PortId,
        let told := if waits p then Told .busError (some .resetting) (s.port p) else s.port p
        t.port p = { told with board := (t.port p).board, tombstones := (t.port p).tombstones }) ∧
      (∀ p : PortId, (t.port p).tombstones = (s.port p).tombstones + allLeases.countP fun id =>
        decide ((s.lease id).state = .draining ∧ (s.lease id).drainEnd = some .revoked ∧ (s.lease id).holder = p ∧
          named id)) ∧
      (∀ r : RegionId,
        let n := allPorts.countP fun p => s.waits p && (s.port p).access.region == some r
        t.region r = { s.region r with inFlight := (s.region r).inFlight - n }) ∧
      (∀ id : LeaseId,
        ((s.lease id).state = .held → t.lease id =
          if named id then { s.lease id with inFlight := false } else s.lease id) ∧
        ((s.lease id).state = .draining → ¬named id → t.lease id = s.lease id) ∧
        ((s.lease id).state = .draining → named id → (s.lease id).drainEnd = some .revoked → t.lease id =
          { s.lease id with state := .revoked, inFlight := false, drainEnd := none }) ∧
        ((s.lease id).state = .draining → named id → (s.lease id).drainEnd = some .free → TagsUnique s →
          t.lease id = Lease.freeWith (s.lease id).generation ∨ Granted s t id) ∧
        ((s.lease id).state = .revoked → t.lease id = s.lease id)) ∧
      (TagsUnique s → Scanned s t (fun _ => False) ∧ ∀ p : PortId, BoardKept s t p) ∧
      ((∃ id : LeaseId, (s.lease id).state = .draining ∧ named id) → ScanDone t) ∧
      ((∀ id : LeaseId, ¬((s.lease id).state = .draining ∧ named id)) → t.le.waiters = s.le.waiters ∧
        t.flagged .slotsLow = s.flagged .slotsLow ∧ ∀ p : PortId, (t.port p).board = (s.port p).board) ∧
      t.mu = { s.mu with regions := t.mu.regions } ∧ t.divider = s.divider ∧ t.freeDraws = s.freeDraws + 1 ∧
      t.le.nextArrival = s.le.nextArrival ∧ t.le.resumeScans = s.le.resumeScans ∧
      t.ptc.threshold = s.ptc.threshold ∧ t.ptc.limit = s.ptc.limit) ∧
    (s.bsq.hold = none → ∃ t, exec .softReset s = .next t ∧ SoftResetDone asked t waits ∧
      ∀ p : PortId, (t.port p).answer =
        if waits p ∧ (s.port p).access.orphaned = false then some .busError else (s.port p).answer)

/-! ## Management registers and frames -/

/-- A TABLE_INDEX write stores the index and takes the snapshot of the selected table, laid out field by field as Table 10-10
gives; an index past its end, or an undefined selection, gives the invalid snapshot. -/
def Obligations.TableIndexTakesASnapshot : Prop :=
  ∀ (s : State) (v : Word),
    let i := (v.extractLsb' 0 8).toNat
    let sel := s.mgp.tableSelect.toNat
    let takes := fun (x : Vector Word 4) =>
      exec (.tableIndexWrite v) s =
        .next { s with mgp := { s.mgp with tableIndex := v.extractLsb' 0 8, tableData := x } }
    (∀ g : GroupId, sel = 0 → i = g.val → takes (groupSnapshot s.mu.groups[g]) ∧
      GroupLayout s.mu.groups[g] (groupSnapshot s.mu.groups[g])) ∧
    (∀ r : RegionId, sel = 1 → i = r.val → takes (regionSnapshot (s.region r)) ∧
      RegionLayout (s.region r) (regionSnapshot (s.region r))) ∧
    (∀ id : LeaseId, sel = 2 → i = id.val → takes (leaseSnapshot (s.lease id)) ∧
      LeaseLayout (s.lease id) (leaseSnapshot (s.lease id))) ∧
    (sel = 3 → ∀ w ∈ s.le.waiters[i]?, takes (waiterSnapshot w) ∧
      WaiterLayout w (waiterSnapshot w)) ∧
    (∀ p : PortId, sel = 4 → i = p.val → takes (portSnapshot p (s.port p)) ∧
      PortLayout p (s.port p) (portSnapshot p (s.port p))) ∧
    (∀ x : TargetId, sel = 5 → i = x.val → takes (targetSnapshot (s.target x)) ∧
      TargetLayout (s.target x) (targetSnapshot (s.target x))) ∧
    ((sel = 0 ∧ 4 ≤ i) ∨ (sel = 1 ∧ 32 ≤ i) ∨ (sel = 2 ∧ 64 ≤ i) ∨ (sel = 3 ∧ s.le.waiters.length ≤ i) ∨
      (sel = 4 ∧ 4 ≤ i) ∨ (sel = 5 ∧ 8 ≤ i) ∨ 6 ≤ sel → takes #v[0#32, 0#32, 0#32, 0#32])

/-- Event flags and MIRQ: a write to EVENT_FLAGS clears the flags whose bits are 1 and leaves the others, a write to
EVENT_ENABLE sets the enables, and MIRQ is asserted exactly while an enabled flag is set. The ten flags stand at bits 0 to 9 in
the order of Table 10-9. -/
def Obligations.EventFlagsAndMirq : Prop :=
  ∀ (s : State) (v : Word) (e : Event),
    let cleared : State := { s with mgp := { s.mgp with flags := s.mgp.flags &&& ~~~(v.extractLsb' 0 10) } }
    let enabled : State := { s with mgp := { s.mgp with enables := v.extractLsb' 0 10 } }
    [Event.frameError, .crcError, .cmdDone, .cmdReject, .targetTimeout, .targetFaulted, .portQuarantined, .portLockedOut,
      .leaseExpired, .slotsLow].map (·.bit) = [0, 1, 2, 3, 4, 5, 6, 7, 8, 9] ∧
    s.flagged e = s.mgp.flags.getLsbD e.bit ∧
    exec (.eventFlagsWrite v) s = .next cleared ∧
    cleared.flagged e = (s.flagged e && !v.getLsbD e.bit) ∧
    exec (.eventEnableWrite v) s = .next enabled ∧
    (enabled.mirq = true ↔ ∃ x ∈ [Event.frameError, .crcError, .cmdDone, .cmdReject, .targetTimeout, .targetFaulted,
      .portQuarantined, .portLockedOut, .leaseExpired, .slotsLow], s.flagged x = true ∧ v.getLsbD x.bit = true)

/-- FAULT_CONFIG: a field out of range discards the write whole; otherwise both values are in force, quarantine counts above
the limit are lowered, and every ONLINE requester at or above the threshold is barred, its HELD leases revoked and its
waiters dropped, with PORT_QUARANTINED raised where one was quarantined and PORT_LOCKED_OUT where one was locked out, and one
grant scan after all of it; where none is barred, nothing else changes. (That the scan is made whatever the barring changed
is the model's choice, log 28.) -/
def Obligations.FaultConfigWeighsTheRequesters : Prop :=
  ∀ (s : State) (v : Word),
    let thr := (v.extractLsb' 0 5).toNat
    let lim := (v.extractLsb' 8 3).toNat
    let bars := fun (p : PortId) => (s.port p).requester.state = .online ∧ thr ≤ (s.port p).requester.faults
    let lowered := fun (p : PortId) =>
      { (s.port p).requester with quarantines := min (s.port p).requester.quarantines lim }
    (thr = 0 ∨ 16 < thr ∨ lim = 0 → exec (.faultConfigWrite v) s = .next s) ∧
    (1 ≤ thr → thr ≤ 16 → 1 ≤ lim → TagsUnique s → ∃ t, exec (.faultConfigWrite v) s = .next t ∧
      (∀ p : PortId,
        t.port p =
          { s.port p with requester := if bars p then Barred lim (lowered p) else lowered p
                          board := (t.port p).board, tombstones := (t.port p).tombstones } ∧ BoardKept s t p) ∧
      BarredAtLe s t bars ∧
      (t.flagged .portQuarantined = true ↔ s.flagged .portQuarantined = true ∨
        ∃ p : PortId, bars p ∧ (Barred lim (lowered p)).state = .quarantined) ∧
      (t.flagged .portLockedOut = true ↔ s.flagged .portLockedOut = true ∨
        ∃ p : PortId, bars p ∧ (Barred lim (lowered p)).state = .lockedOut) ∧
      ((∃ p : PortId, bars p) → ScanDone t) ∧
      ((∀ p : PortId, ¬bars p) → t.le = s.le ∧ t.mgp = s.mgp ∧
        ∀ p : PortId, (t.port p).board = (s.port p).board ∧ (t.port p).tombstones = (s.port p).tombstones) ∧
      Quiet { s with ptc := { s.ptc with threshold := thr, limit := lim } } t
        [.slotsLow, .portQuarantined, .portLockedOut])

/-- The register writes without a unit behind them: each stores its fields, reserved bits dropped, and changes nothing
else. The TARGET_LIMIT registers hold the limits of T0 to T3 and of T4 to T7 and read back what they hold. WINDOW_BASE is
written while the map is BOOT only, 4 KiB aligned; a CRC_CONTROL write of an undefined polynomial is discarded whole.
Read-only registers, REGION_STAGE3 and numbers that name no register discard the write. -/
def Obligations.PlainRegistersStore : Prop :=
  ∀ (s : State) (n : BitVec 7) (v : Word),
    exec (.registerWrite 4#7 v) s = .next { s with mgp := { s.mgp with tickDiv := v.extractLsb' 0 16 } } ∧
    exec (.registerWrite 5#7 v) s = .next { s with bsq := { s.bsq with busTimeout := v.extractLsb' 0 8 } } ∧
    exec (.registerWrite 6#7 v) s = .next { s with mgp := { s.mgp with slotsLowMark := v.extractLsb' 0 6 } } ∧
    exec (.registerWrite 10#7 v) s = .next { s with mgp := { s.mgp with hostArg := v.extractLsb' 0 12 } } ∧
    exec (.registerWrite 12#7 v) s = .next { s with mgp := { s.mgp with groupStage := v &&& 0xFFFF3F01#32 } } ∧
    exec (.registerWrite 13#7 v) s =
      .next { s with mgp := { s.mgp with regionStage := s.mgp.regionStage.set 0 (v &&& 0xFFFFFF3F#32) } } ∧
    exec (.registerWrite 14#7 v) s =
      .next { s with mgp := { s.mgp with regionStage := s.mgp.regionStage.set 1 (v &&& 0xFF031F37#32) } } ∧
    exec (.registerWrite 15#7 v) s =
      .next { s with mgp := { s.mgp with regionStage := s.mgp.regionStage.set 2 (v &&& 0x01F7FFFF#32) } } ∧
    exec (.registerWrite 17#7 v) s = .next { s with mgp := { s.mgp with tableSelect := v.extractLsb' 0 3 } } ∧
    (∀ p : PortId, n.toNat = 23 + p.val → exec (.registerWrite n v) s =
      .next (s.updPort p fun q => { q with requester := { q.requester with
        busPriority := (v.extractLsb' 0 2).toFin, claimCap := (v.extractLsb' 4 2).toFin } })) ∧
    (n = 28#7 ∨ n = 29#7 → ∃ t, exec (.registerWrite n v) s = .next t ∧
      (∀ x : TargetId, t.target x =
        if x.val / 4 = n.toNat - 28 then { s.target x with limit := (v.extractLsb' (4 * (x.val % 4)) 4).toNat }
        else s.target x) ∧
      t = { s with bsq := { s.bsq with targets := t.bsq.targets } } ∧ t.readRegister n = v &&& 0xFFFF#32) ∧
    (n.toNat ∈ [0, 2, 11, 16, 19, 20, 21, 22] ∨ 30 ≤ n.toNat → exec (.registerWrite n v) s = .next s) ∧
    (s.mu.map = .boot → exec (.windowBaseWrite v) s =
      .next { s with mu := { s.mu with windowBase := v &&& 0xFFFFF000#32 } }) ∧
    (s.mu.map = .live → exec (.windowBaseWrite v) s = .next s) ∧
    (v.extractLsb' 1 2 = 0#2 → exec (.crcControlWrite v) s =
      .next { s with mgp := { s.mgp with crc := { enable := v.getLsbD 0, poly := .p31 } } }) ∧
    (v.extractLsb' 1 2 = 1#2 → exec (.crcControlWrite v) s =
      .next { s with mgp := { s.mgp with crc := { enable := v.getLsbD 0, poly := .p9B } } }) ∧
    (2 ≤ (v.extractLsb' 1 2).toNat → exec (.crcControlWrite v) s = .next s)

/-- A low period of nCS ends: over all its bits, whether they came one by one or with the command, a wrong length raises
FRAME_ERROR, a CRC mismatch raises CRC_ERROR, a read frame changes nothing, and a write frame that passes is the applied write
of its data to its register, as its row gives it. Length and CRC are those of the CRC configuration in force at the fall of
nCS. A low period that began before a hardware reset is no frame. (That the command carries the bits not yet seen is log 7.) -/
def Obligations.FramesAreChecked : Prop :=
  ∀ (s : State) (bits : List Bool) (n : BitVec 7) (v : Word),
    let risen : State := { s with mgp := { s.mgp with receiver := .high } }
    let flag := fun (m : BitVec 10) => ({ risen with mgp := { risen.mgp with flags := s.mgp.flags ||| m } } : State)
    let checked := fun (all : List Bool) (crc : CrcConfig) =>
      let len := if crc.enable then 48 else 40
      let crcWrong := crc.enable = true ∧ BitVec.ofNat 8 (bitsToNat ((all.take 48).drop 40)) ≠ crc8 crc.poly (all.take 40)
      (all.length ≠ len → exec (.ncsRise bits) s = .next (flag 0b0000000001#10)) ∧
      (all.length = len → crcWrong → exec (.ncsRise bits) s = .next (flag 0b0000000010#10)) ∧
      (all.length = len → ¬crcWrong → all.head? = some false → exec (.ncsRise bits) s = .next risen) ∧
      (all.length = len → ¬crcWrong → all.take 40 = true :: natToBits 7 n.toNat ++ natToBits 32 v.toNat →
        exec (.ncsRise bits) s = exec (.registerWrite n v) risen ∧
        (n = 1#7 → exec (.ncsRise bits) s = exec (.crcControlWrite v) risen) ∧
        (n = 3#7 → exec (.ncsRise bits) s = exec (.windowBaseWrite v) risen) ∧
        (n = 7#7 → exec (.ncsRise bits) s = exec (.eventFlagsWrite v) risen) ∧
        (n = 8#7 → exec (.ncsRise bits) s = exec (.eventEnableWrite v) risen) ∧
        (n = 18#7 → exec (.ncsRise bits) s = exec (.tableIndexWrite v) risen) ∧
        (n = 27#7 → exec (.ncsRise bits) s = exec (.faultConfigWrite v) risen) ∧
        ∀ code : Fin 14, 1 ≤ code → n = 9#7 → (v.extractLsb' 0 4).toNat = code.val →
          exec (.ncsRise bits) s = exec (hostRow code) risen)
    (s.mgp.receiver = .high → checked bits s.mgp.crc) ∧
    (∀ (got : List Bool) (x : Word) (crc : CrcConfig) (k : Nat), s.mgp.receiver = .receiving got x crc k →
      checked (got ++ bits) crc) ∧
    (s.mgp.receiver = .abandoned → exec (.ncsRise bits) s = .next risen)

/-- A read in a frame: at the eighth rising edge of SCK the value of the register that byte 0 names is captured; SDO changes
at the falling edges, and shows 0 in byte 0, the captured value most significant bit first in bytes 1 to 4, with CRC enabled
the CRC of the received byte 0 and that value in byte 5, and 0 beyond; it is undriven while nCS is high. How the CRC is
computed, and what each register reads as. Reading changes nothing but the receiver. (That SDO reads 0 in a low period begun
before a hardware reset is the model's choice, log 17.) -/
def Obligations.ReadFramesReturnRegisters : Prop :=
  ∀ (s : State) (bits : List Bool) (b : Bool) (v : Word) (crc : CrcConfig) (k : Nat) (n : BitVec 7),
    (s.mgp.receiver = .receiving bits v crc k →
      let named : BitVec 7 := BitVec.ofNat 7 (bitsToNat ((bits ++ [b]).drop 1))
      let goesOn := fun (x : Word) =>
        s.sckRise b = { s with mgp := { s.mgp with receiver := .receiving (bits ++ [b]) x crc k } }
      (bits.length = 7 → goesOn (s.readRegister named)) ∧
      (bits.length ≠ 7 → goesOn v) ∧
      s.sckFall = { s with mgp := { s.mgp with receiver := .receiving bits v crc bits.length } } ∧
      (k < 8 → s.sdo = some false) ∧
      (8 ≤ k → k < 40 → s.sdo = some (v.getLsbD (39 - k))) ∧
      (40 ≤ k → k < 48 → crc.enable = true →
        s.sdo = some ((crc8 crc.poly (bits.take 8 ++ natToBits 32 v.toNat)).getLsbD (47 - k))) ∧
      (40 ≤ k → crc.enable = false → s.sdo = some false) ∧
      (48 ≤ k → s.sdo = some false)) ∧
    (s.mgp.receiver = .high → s.sckRise b = s ∧ s.sckFall = s ∧ s.sdo = none) ∧
    (s.mgp.receiver = .abandoned → s.sckRise b = s ∧ s.sckFall = s ∧ s.sdo = some false) ∧
    (let c := crc8 crc.poly bits
      let poly := if crc.poly = .p31 then 0x31#8 else 0x9B#8
      crc8 crc.poly [] = 0xFF#8 ∧
      crc8 crc.poly (bits ++ [b]) = if c.getLsbD 7 = b then c <<< 1 else (c <<< 1) ^^^ poly) ∧
    s.readRegister 0#7 = 0xA7C64001#32 ∧
    field (s.readRegister 1#7) 0 1 = s.mgp.crc.enable.toNat ∧
    field (s.readRegister 1#7) 1 2 = (if s.mgp.crc.poly = .p31 then 0 else 1) ∧
    field (s.readRegister 2#7) 0 1 = (if s.mu.map = .live then 1 else 0) ∧
    field (s.readRegister 2#7) 1 1 = (if s.mgp.unit = .idle then 0 else 1) ∧
    field (s.readRegister 2#7) 8 7 = s.le.freeSlots % 128 ∧ field (s.readRegister 2#7) 16 5 = s.le.waiters.length % 32 ∧
    s.readRegister 3#7 = s.mu.windowBase ∧ s.readRegister 4#7 = s.mgp.tickDiv.setWidth 32 ∧
    s.readRegister 5#7 = s.bsq.busTimeout.setWidth 32 ∧ s.readRegister 6#7 = s.mgp.slotsLowMark.setWidth 32 ∧
    s.readRegister 7#7 = s.mgp.flags.setWidth 32 ∧ s.readRegister 8#7 = s.mgp.enables.setWidth 32 ∧
    s.readRegister 9#7 = s.mgp.hostCmd.setWidth 32 ∧ s.readRegister 10#7 = s.mgp.hostArg.setWidth 32 ∧
    field (s.readRegister 11#7) 0 4 = s.mgp.hostStatus.code.toNat ∧
    field (s.readRegister 11#7) 8 3 = s.mgp.hostStatus.result.code ∧
    s.readRegister 12#7 = s.mgp.groupStage ∧ s.readRegister 13#7 = s.mgp.regionStage[0] ∧
    s.readRegister 14#7 = s.mgp.regionStage[1] ∧ s.readRegister 15#7 = s.mgp.regionStage[2] ∧
    s.readRegister 17#7 = s.mgp.tableSelect.setWidth 32 ∧ s.readRegister 18#7 = s.mgp.tableIndex.setWidth 32 ∧
    (∀ k : Fin 4, n.toNat = 19 + k.val → s.readRegister n = s.mgp.tableData[k]) ∧
    (∀ p : PortId, n.toNat = 23 + p.val →
      field (s.readRegister n) 0 2 = (s.port p).requester.busPriority.val ∧
      field (s.readRegister n) 4 2 = (s.port p).requester.claimCap.val) ∧
    field (s.readRegister 27#7) 0 5 = s.ptc.threshold % 32 ∧ field (s.readRegister 27#7) 8 3 = s.ptc.limit % 8 ∧
    (n = 16#7 ∨ 30 ≤ n.toNat → s.readRegister n = 0#32)

/-! ## Laws of the whole part -/

/-- A requester's accesses, lease commands and leaving of reset change no other port's REQUEST words, mailbox, port access
record, last-fault record or requester record: only notices and tombstones reach another port. -/
def Obligations.PortsAreSeparate : Prop :=
  ∀ (s t : State) (c : Instr) (p q : PortId), senderOf c = some p → q ≠ p → exec c s = .next t →
    (t.port q).request = (s.port q).request ∧ (t.port q).mailbox = (s.port q).mailbox ∧
    (t.port q).access = (s.port q).access ∧ (t.port q).lastFault = (s.port q).lastFault ∧
    (t.port q).requester = (s.port q).requester ∧ (t.port q).answer = (s.port q).answer

/-- A LOCKED_OUT requester leaves that state, and a LIVE map becomes BOOT, at power-on reset and nRESET only; a BOOT map
becomes LIVE by GO_LIVE only. -/
def Obligations.StatesOnlyHardwareResetEnds : Prop :=
  ∀ (s t : State) (c : Instr), exec c s = .next t →
    (∀ p : PortId, c ≠ .powerOnReset → c ≠ .nreset → (s.port p).requester.state = .lockedOut →
      (t.port p).requester.state = .lockedOut) ∧
    (s.mu.map = .live → t.mu.map = .boot → c = .powerOnReset ∨ c = .nreset) ∧
    (s.mu.map = .boot → t.mu.map = .live → s.mgp.unit = .idle ∧ t.mgp.hostCmd = 1#4 ∧
      (c = .goLive ∨ (∃ v, c = .registerWrite 9#7 v ∧ v.extractLsb' 0 4 = 1#4) ∨ ∃ bits, c = .ncsRise bits))

/-- Every step keeps the two counts equal to what they count. -/
def Obligations.CountsAgreeForEver : Prop :=
  ∀ (s t : State), CountsAgree s → step s = .next t → CountsAgree t

/-- Every step keeps the Wait List a list of at most 16 waiters, never two of one requester and tag, each of an ONLINE
requester not in reset and on an ACTIVE or SUSPENDED region; no waiting tag holds a notice; and every step keeps waiters of
higher priority ahead of those of lower. -/
def Obligations.WaitListStaysWellFormed : Prop :=
  ∀ (s t : State), step s = .next t →
    (TagsUnique s → HoldersOnline s →
      t.le.waiters.length ≤ 16 ∧ TagsUnique t ∧
      ∀ w ∈ t.le.waiters, (t.port w.requester).requester.state = .online ∧
        (t.port w.requester).requester.inReset = false ∧
        ((t.region w.region).state = .active ∨ (t.region w.region).state = .suspended)) ∧
    (WaitListOrdered s → WaitListOrdered t)

/-- Every step keeps the remaining ticks of every HELD lease between 1 and its term. -/
def Obligations.HeldLeasesHaveTime : Prop :=
  ∀ (s t : State), TermsHold s → step s = .next t → TermsHold t

/-- Every step keeps the fault counts of ONLINE requesters below the threshold and the quarantine counts at most at the
limit. -/
def Obligations.FaultsStayContained : Prop :=
  ∀ (s t : State), FaultsContained s → step s = .next t → FaultsContained t

/-- Every step keeps HELD leases and waiters with ONLINE requesters not in reset, on ACTIVE or SUSPENDED regions. -/
def Obligations.OnlyOnlineRequestersHold : Prop :=
  ∀ (s t : State), HoldersOnline s → step s = .next t → HoldersOnline t

/-- Every step keeps conflicting rights from being held together. -/
def Obligations.NoConflictingLeases : Prop :=
  ∀ (s t : State), NoConflicts s → step s = .next t → NoConflicts t

/-- Every step keeps the in-flight counts of leases and regions, and the holder of the bus, equal to the accepted accesses;
a DRAINING lease has one access in flight, a FREE or REVOKED one none, and no region count passes 4. -/
def Obligations.InFlightCountsAgree : Prop :=
  ∀ (s t : State), InFlightAgrees s → step s = .next t →
    InFlightAgrees t ∧ (∀ r : RegionId, (t.region r).inFlight ≤ 4) ∧
    ∀ id : LeaseId, (t.lease id).state = .free ∨ (t.lease id).state = .revoked → (t.lease id).inFlight = false

/-- Every step keeps every address in the range of a live lease decoding to the lease's region, INVALID slots empty, and
holders and waiters with the rights their modes need. -/
def Obligations.LeasesFitTheMap : Prop :=
  ∀ (s t : State), HoldersOnline s → RangesDecode s → InvalidSlotsEmpty s → HoldersHaveRights s → MapFits s →
    step s = .next t →
    RangesDecode t ∧ InvalidSlotsEmpty t ∧ HoldersHaveRights t ∧
    ∀ (id : LeaseId) (x : Word), (t.lease id).live = true → (t.lease id).range.contains x = true →
      ∀ (p : PortId) (dir : Direction),
        t.mu.decode p dir x = .region (t.lease id).region ∨ t.mu.decode p dir x = .inactive (t.lease id).region

/-- Every step keeps the groups disjoint and every installed region inside its group, a slot RETIRING exactly while the unit
runs its retirement, the lease records in the shape of Table 3-1, the window aligned, and the Lease Table empty in BOOT. -/
def Obligations.MapAndRecordsKeepTheirShape : Prop :=
  ∀ (s t : State), step s = .next t →
    (MapFits s → MapFits t) ∧ (RetireAgrees s → RetireAgrees t) ∧ (LeasesShaped s → LeasesShaped t) ∧ (WindowAligned s → WindowAligned t) ∧
    (BootIsEmpty s → BootIsEmpty t)
end

