-- ==== Sys2Proof/Laws/State.lean ====
section
/-! SUPPORT. What each update leaves of each part of the state: one lemma per field per update, true by definition. -/

namespace Sys2Proof.Machine

/-! ## `updPort` -/

@[simp] theorem updPort_mu (s : State) (q : PortId) (f : Port → Port) : (s.updPort q f).mu = s.mu := rfl
@[simp] theorem updPort_le (s : State) (q : PortId) (f : Port → Port) : (s.updPort q f).le = s.le := rfl
@[simp] theorem updPort_divider (s : State) (q : PortId) (f : Port → Port) : (s.updPort q f).divider = s.divider := rfl
@[simp] theorem updPort_bsq (s : State) (q : PortId) (f : Port → Port) : (s.updPort q f).bsq = s.bsq := rfl
@[simp] theorem updPort_ptc_threshold (s : State) (q : PortId) (f : Port → Port) :
    (s.updPort q f).ptc.threshold = s.ptc.threshold := rfl
@[simp] theorem updPort_ptc_limit (s : State) (q : PortId) (f : Port → Port) :
    (s.updPort q f).ptc.limit = s.ptc.limit := rfl
@[simp] theorem updPort_mgp (s : State) (q : PortId) (f : Port → Port) : (s.updPort q f).mgp = s.mgp := rfl
@[simp] theorem updPort_freeDraws (s : State) (q : PortId) (f : Port → Port) :
    (s.updPort q f).freeDraws = s.freeDraws := rfl
@[simp] theorem updPort_inputs (s : State) (q : PortId) (f : Port → Port) : (s.updPort q f).inputs = s.inputs := rfl
@[simp] theorem updPort_pending (s : State) (q : PortId) (f : Port → Port) : (s.updPort q f).pending = s.pending := rfl
@[simp] theorem updPort_region (s : State) (q : PortId) (f : Port → Port) (r : RegionId) :
    (s.updPort q f).region r = s.region r := rfl
@[simp] theorem updPort_lease (s : State) (q : PortId) (f : Port → Port) (id : LeaseId) :
    (s.updPort q f).lease id = s.lease id := rfl
@[simp] theorem updPort_target (s : State) (q : PortId) (f : Port → Port) (x : TargetId) :
    (s.updPort q f).target x = s.target x := rfl

/-! ## `updRequester` -/

@[simp] theorem updRequester_mu (s : State) (q : PortId) (f : Requester → Requester) :
    (s.updRequester q f).mu = s.mu := rfl
@[simp] theorem updRequester_le (s : State) (q : PortId) (f : Requester → Requester) :
    (s.updRequester q f).le = s.le := rfl
@[simp] theorem updRequester_divider (s : State) (q : PortId) (f : Requester → Requester) :
    (s.updRequester q f).divider = s.divider := rfl
@[simp] theorem updRequester_bsq (s : State) (q : PortId) (f : Requester → Requester) :
    (s.updRequester q f).bsq = s.bsq := rfl
@[simp] theorem updRequester_ptc_threshold (s : State) (q : PortId) (f : Requester → Requester) :
    (s.updRequester q f).ptc.threshold = s.ptc.threshold := rfl
@[simp] theorem updRequester_ptc_limit (s : State) (q : PortId) (f : Requester → Requester) :
    (s.updRequester q f).ptc.limit = s.ptc.limit := rfl
@[simp] theorem updRequester_mgp (s : State) (q : PortId) (f : Requester → Requester) :
    (s.updRequester q f).mgp = s.mgp := rfl
@[simp] theorem updRequester_freeDraws (s : State) (q : PortId) (f : Requester → Requester) :
    (s.updRequester q f).freeDraws = s.freeDraws := rfl
@[simp] theorem updRequester_inputs (s : State) (q : PortId) (f : Requester → Requester) :
    (s.updRequester q f).inputs = s.inputs := rfl
@[simp] theorem updRequester_pending (s : State) (q : PortId) (f : Requester → Requester) :
    (s.updRequester q f).pending = s.pending := rfl
@[simp] theorem updRequester_region (s : State) (q : PortId) (f : Requester → Requester) (r : RegionId) :
    (s.updRequester q f).region r = s.region r := rfl
@[simp] theorem updRequester_lease (s : State) (q : PortId) (f : Requester → Requester) (id : LeaseId) :
    (s.updRequester q f).lease id = s.lease id := rfl
@[simp] theorem updRequester_target (s : State) (q : PortId) (f : Requester → Requester) (x : TargetId) :
    (s.updRequester q f).target x = s.target x := rfl

/-! ## `updAccess` -/

@[simp] theorem updAccess_mu (s : State) (q : PortId) (f : AccessRecord → AccessRecord) :
    (s.updAccess q f).mu = s.mu := rfl
@[simp] theorem updAccess_le (s : State) (q : PortId) (f : AccessRecord → AccessRecord) :
    (s.updAccess q f).le = s.le := rfl
@[simp] theorem updAccess_divider (s : State) (q : PortId) (f : AccessRecord → AccessRecord) :
    (s.updAccess q f).divider = s.divider := rfl
@[simp] theorem updAccess_bsq (s : State) (q : PortId) (f : AccessRecord → AccessRecord) :
    (s.updAccess q f).bsq = s.bsq := rfl
@[simp] theorem updAccess_ptc_threshold (s : State) (q : PortId) (f : AccessRecord → AccessRecord) :
    (s.updAccess q f).ptc.threshold = s.ptc.threshold := rfl
@[simp] theorem updAccess_ptc_limit (s : State) (q : PortId) (f : AccessRecord → AccessRecord) :
    (s.updAccess q f).ptc.limit = s.ptc.limit := rfl
@[simp] theorem updAccess_mgp (s : State) (q : PortId) (f : AccessRecord → AccessRecord) :
    (s.updAccess q f).mgp = s.mgp := rfl
@[simp] theorem updAccess_freeDraws (s : State) (q : PortId) (f : AccessRecord → AccessRecord) :
    (s.updAccess q f).freeDraws = s.freeDraws := rfl
@[simp] theorem updAccess_inputs (s : State) (q : PortId) (f : AccessRecord → AccessRecord) :
    (s.updAccess q f).inputs = s.inputs := rfl
@[simp] theorem updAccess_pending (s : State) (q : PortId) (f : AccessRecord → AccessRecord) :
    (s.updAccess q f).pending = s.pending := rfl
@[simp] theorem updAccess_region (s : State) (q : PortId) (f : AccessRecord → AccessRecord) (r : RegionId) :
    (s.updAccess q f).region r = s.region r := rfl
@[simp] theorem updAccess_lease (s : State) (q : PortId) (f : AccessRecord → AccessRecord) (id : LeaseId) :
    (s.updAccess q f).lease id = s.lease id := rfl
@[simp] theorem updAccess_target (s : State) (q : PortId) (f : AccessRecord → AccessRecord) (x : TargetId) :
    (s.updAccess q f).target x = s.target x := rfl

/-! ## `answer` -/

@[simp] theorem answer_mu (s : State) (q : PortId) (a : Answer) : (s.answer q a).mu = s.mu := rfl
@[simp] theorem answer_le (s : State) (q : PortId) (a : Answer) : (s.answer q a).le = s.le := rfl
@[simp] theorem answer_divider (s : State) (q : PortId) (a : Answer) : (s.answer q a).divider = s.divider := rfl
@[simp] theorem answer_bsq (s : State) (q : PortId) (a : Answer) : (s.answer q a).bsq = s.bsq := rfl
@[simp] theorem answer_ptc_threshold (s : State) (q : PortId) (a : Answer) :
    (s.answer q a).ptc.threshold = s.ptc.threshold := rfl
@[simp] theorem answer_ptc_limit (s : State) (q : PortId) (a : Answer) : (s.answer q a).ptc.limit = s.ptc.limit := rfl
@[simp] theorem answer_mgp (s : State) (q : PortId) (a : Answer) : (s.answer q a).mgp = s.mgp := rfl
@[simp] theorem answer_freeDraws (s : State) (q : PortId) (a : Answer) : (s.answer q a).freeDraws = s.freeDraws := rfl
@[simp] theorem answer_inputs (s : State) (q : PortId) (a : Answer) : (s.answer q a).inputs = s.inputs := rfl
@[simp] theorem answer_pending (s : State) (q : PortId) (a : Answer) : (s.answer q a).pending = s.pending := rfl
@[simp] theorem answer_region (s : State) (q : PortId) (a : Answer) (r : RegionId) :
    (s.answer q a).region r = s.region r := rfl
@[simp] theorem answer_lease (s : State) (q : PortId) (a : Answer) (id : LeaseId) :
    (s.answer q a).lease id = s.lease id := rfl
@[simp] theorem answer_target (s : State) (q : PortId) (a : Answer) (x : TargetId) :
    (s.answer q a).target x = s.target x := rfl

/-! ## `placeNotice` -/

@[simp] theorem placeNotice_mu (s : State) (q : PortId) (tag : Tag) (n : ClaimNotice) :
    (s.placeNotice q tag n).mu = s.mu := rfl
@[simp] theorem placeNotice_le (s : State) (q : PortId) (tag : Tag) (n : ClaimNotice) :
    (s.placeNotice q tag n).le = s.le := rfl
@[simp] theorem placeNotice_divider (s : State) (q : PortId) (tag : Tag) (n : ClaimNotice) :
    (s.placeNotice q tag n).divider = s.divider := rfl
@[simp] theorem placeNotice_bsq (s : State) (q : PortId) (tag : Tag) (n : ClaimNotice) :
    (s.placeNotice q tag n).bsq = s.bsq := rfl
@[simp] theorem placeNotice_ptc_threshold (s : State) (q : PortId) (tag : Tag) (n : ClaimNotice) :
    (s.placeNotice q tag n).ptc.threshold = s.ptc.threshold := rfl
@[simp] theorem placeNotice_ptc_limit (s : State) (q : PortId) (tag : Tag) (n : ClaimNotice) :
    (s.placeNotice q tag n).ptc.limit = s.ptc.limit := rfl
@[simp] theorem placeNotice_mgp (s : State) (q : PortId) (tag : Tag) (n : ClaimNotice) :
    (s.placeNotice q tag n).mgp = s.mgp := rfl
@[simp] theorem placeNotice_freeDraws (s : State) (q : PortId) (tag : Tag) (n : ClaimNotice) :
    (s.placeNotice q tag n).freeDraws = s.freeDraws := rfl
@[simp] theorem placeNotice_inputs (s : State) (q : PortId) (tag : Tag) (n : ClaimNotice) :
    (s.placeNotice q tag n).inputs = s.inputs := rfl
@[simp] theorem placeNotice_pending (s : State) (q : PortId) (tag : Tag) (n : ClaimNotice) :
    (s.placeNotice q tag n).pending = s.pending := rfl
@[simp] theorem placeNotice_region (s : State) (q : PortId) (tag : Tag) (n : ClaimNotice) (r : RegionId) :
    (s.placeNotice q tag n).region r = s.region r := rfl
@[simp] theorem placeNotice_lease (s : State) (q : PortId) (tag : Tag) (n : ClaimNotice) (id : LeaseId) :
    (s.placeNotice q tag n).lease id = s.lease id := rfl
@[simp] theorem placeNotice_target (s : State) (q : PortId) (tag : Tag) (n : ClaimNotice) (x : TargetId) :
    (s.placeNotice q tag n).target x = s.target x := rfl

/-! ## `clearPort` -/

@[simp] theorem clearPort_mu (s : State) (q : PortId) : (s.clearPort q).mu = s.mu := rfl
@[simp] theorem clearPort_le (s : State) (q : PortId) : (s.clearPort q).le = s.le := rfl
@[simp] theorem clearPort_divider (s : State) (q : PortId) : (s.clearPort q).divider = s.divider := rfl
@[simp] theorem clearPort_bsq (s : State) (q : PortId) : (s.clearPort q).bsq = s.bsq := rfl
@[simp] theorem clearPort_ptc_threshold (s : State) (q : PortId) :
    (s.clearPort q).ptc.threshold = s.ptc.threshold := rfl
@[simp] theorem clearPort_ptc_limit (s : State) (q : PortId) : (s.clearPort q).ptc.limit = s.ptc.limit := rfl
@[simp] theorem clearPort_mgp (s : State) (q : PortId) : (s.clearPort q).mgp = s.mgp := rfl
@[simp] theorem clearPort_freeDraws (s : State) (q : PortId) : (s.clearPort q).freeDraws = s.freeDraws := rfl
@[simp] theorem clearPort_inputs (s : State) (q : PortId) : (s.clearPort q).inputs = s.inputs := rfl
@[simp] theorem clearPort_pending (s : State) (q : PortId) : (s.clearPort q).pending = s.pending := rfl
@[simp] theorem clearPort_region (s : State) (q : PortId) (r : RegionId) : (s.clearPort q).region r = s.region r := rfl
@[simp] theorem clearPort_lease (s : State) (q : PortId) (id : LeaseId) : (s.clearPort q).lease id = s.lease id := rfl
@[simp] theorem clearPort_target (s : State) (q : PortId) (x : TargetId) : (s.clearPort q).target x = s.target x := rfl

/-! ## `updRegion` -/

@[simp] theorem updRegion_mu_map (s : State) (k : RegionId) (f : Region → Region) :
    (s.updRegion k f).mu.map = s.mu.map := rfl
@[simp] theorem updRegion_mu_windowBase (s : State) (k : RegionId) (f : Region → Region) :
    (s.updRegion k f).mu.windowBase = s.mu.windowBase := rfl
@[simp] theorem updRegion_mu_groups (s : State) (k : RegionId) (f : Region → Region) :
    (s.updRegion k f).mu.groups = s.mu.groups := rfl
@[simp] theorem updRegion_le (s : State) (k : RegionId) (f : Region → Region) : (s.updRegion k f).le = s.le := rfl
@[simp] theorem updRegion_divider (s : State) (k : RegionId) (f : Region → Region) :
    (s.updRegion k f).divider = s.divider := rfl
@[simp] theorem updRegion_bsq (s : State) (k : RegionId) (f : Region → Region) : (s.updRegion k f).bsq = s.bsq := rfl
@[simp] theorem updRegion_ptc (s : State) (k : RegionId) (f : Region → Region) : (s.updRegion k f).ptc = s.ptc := rfl
@[simp] theorem updRegion_mgp (s : State) (k : RegionId) (f : Region → Region) : (s.updRegion k f).mgp = s.mgp := rfl
@[simp] theorem updRegion_freeDraws (s : State) (k : RegionId) (f : Region → Region) :
    (s.updRegion k f).freeDraws = s.freeDraws := rfl
@[simp] theorem updRegion_inputs (s : State) (k : RegionId) (f : Region → Region) :
    (s.updRegion k f).inputs = s.inputs := rfl
@[simp] theorem updRegion_pending (s : State) (k : RegionId) (f : Region → Region) :
    (s.updRegion k f).pending = s.pending := rfl
@[simp] theorem updRegion_port (s : State) (k : RegionId) (f : Region → Region) (p : PortId) :
    (s.updRegion k f).port p = s.port p := rfl
@[simp] theorem updRegion_lease (s : State) (k : RegionId) (f : Region → Region) (id : LeaseId) :
    (s.updRegion k f).lease id = s.lease id := rfl
@[simp] theorem updRegion_target (s : State) (k : RegionId) (f : Region → Region) (x : TargetId) :
    (s.updRegion k f).target x = s.target x := rfl

/-! ## `updTarget` -/

@[simp] theorem updTarget_mu (s : State) (k : TargetId) (f : Target → Target) : (s.updTarget k f).mu = s.mu := rfl
@[simp] theorem updTarget_le (s : State) (k : TargetId) (f : Target → Target) : (s.updTarget k f).le = s.le := rfl
@[simp] theorem updTarget_divider (s : State) (k : TargetId) (f : Target → Target) :
    (s.updTarget k f).divider = s.divider := rfl
@[simp] theorem updTarget_bsq_hold (s : State) (k : TargetId) (f : Target → Target) :
    (s.updTarget k f).bsq.hold = s.bsq.hold := rfl
@[simp] theorem updTarget_bsq_pointers (s : State) (k : TargetId) (f : Target → Target) :
    (s.updTarget k f).bsq.pointers = s.bsq.pointers := rfl
@[simp] theorem updTarget_bsq_busTimeout (s : State) (k : TargetId) (f : Target → Target) :
    (s.updTarget k f).bsq.busTimeout = s.bsq.busTimeout := rfl
@[simp] theorem updTarget_ptc (s : State) (k : TargetId) (f : Target → Target) : (s.updTarget k f).ptc = s.ptc := rfl
@[simp] theorem updTarget_mgp (s : State) (k : TargetId) (f : Target → Target) : (s.updTarget k f).mgp = s.mgp := rfl
@[simp] theorem updTarget_freeDraws (s : State) (k : TargetId) (f : Target → Target) :
    (s.updTarget k f).freeDraws = s.freeDraws := rfl
@[simp] theorem updTarget_inputs (s : State) (k : TargetId) (f : Target → Target) :
    (s.updTarget k f).inputs = s.inputs := rfl
@[simp] theorem updTarget_pending (s : State) (k : TargetId) (f : Target → Target) :
    (s.updTarget k f).pending = s.pending := rfl
@[simp] theorem updTarget_port (s : State) (k : TargetId) (f : Target → Target) (p : PortId) :
    (s.updTarget k f).port p = s.port p := rfl
@[simp] theorem updTarget_region (s : State) (k : TargetId) (f : Target → Target) (r : RegionId) :
    (s.updTarget k f).region r = s.region r := rfl
@[simp] theorem updTarget_lease (s : State) (k : TargetId) (f : Target → Target) (id : LeaseId) :
    (s.updTarget k f).lease id = s.lease id := rfl

/-! ## `setWaiters` -/

@[simp] theorem setWaiters_mu (s : State) (ws : List Waiter) : (s.setWaiters ws).mu = s.mu := rfl
@[simp] theorem setWaiters_le_leases (s : State) (ws : List Waiter) : (s.setWaiters ws).le.leases = s.le.leases := rfl
@[simp] theorem setWaiters_le_freeSlots (s : State) (ws : List Waiter) :
    (s.setWaiters ws).le.freeSlots = s.le.freeSlots := rfl
@[simp] theorem setWaiters_le_waiters (s : State) (ws : List Waiter) : (s.setWaiters ws).le.waiters = ws := rfl
@[simp] theorem setWaiters_le_nextArrival (s : State) (ws : List Waiter) :
    (s.setWaiters ws).le.nextArrival = s.le.nextArrival := rfl
@[simp] theorem setWaiters_le_resumeScans (s : State) (ws : List Waiter) :
    (s.setWaiters ws).le.resumeScans = s.le.resumeScans := rfl
@[simp] theorem setWaiters_divider (s : State) (ws : List Waiter) : (s.setWaiters ws).divider = s.divider := rfl
@[simp] theorem setWaiters_bsq (s : State) (ws : List Waiter) : (s.setWaiters ws).bsq = s.bsq := rfl
@[simp] theorem setWaiters_ptc (s : State) (ws : List Waiter) : (s.setWaiters ws).ptc = s.ptc := rfl
@[simp] theorem setWaiters_mgp (s : State) (ws : List Waiter) : (s.setWaiters ws).mgp = s.mgp := rfl
@[simp] theorem setWaiters_freeDraws (s : State) (ws : List Waiter) : (s.setWaiters ws).freeDraws = s.freeDraws := rfl
@[simp] theorem setWaiters_inputs (s : State) (ws : List Waiter) : (s.setWaiters ws).inputs = s.inputs := rfl
@[simp] theorem setWaiters_pending (s : State) (ws : List Waiter) : (s.setWaiters ws).pending = s.pending := rfl
@[simp] theorem setWaiters_port (s : State) (ws : List Waiter) (p : PortId) : (s.setWaiters ws).port p = s.port p := rfl
@[simp] theorem setWaiters_region (s : State) (ws : List Waiter) (r : RegionId) :
    (s.setWaiters ws).region r = s.region r := rfl
@[simp] theorem setWaiters_lease (s : State) (ws : List Waiter) (id : LeaseId) :
    (s.setWaiters ws).lease id = s.lease id := rfl
@[simp] theorem setWaiters_target (s : State) (ws : List Waiter) (x : TargetId) :
    (s.setWaiters ws).target x = s.target x := rfl

/-! ## `removeWaiters` -/

@[simp] theorem removeWaiters_mu (s : State) (out : Waiter → Bool) : (s.removeWaiters out).mu = s.mu := rfl
@[simp] theorem removeWaiters_le_leases (s : State) (out : Waiter → Bool) :
    (s.removeWaiters out).le.leases = s.le.leases := rfl
@[simp] theorem removeWaiters_le_freeSlots (s : State) (out : Waiter → Bool) :
    (s.removeWaiters out).le.freeSlots = s.le.freeSlots := rfl
@[simp] theorem removeWaiters_le_waiters (s : State) (out : Waiter → Bool) :
    (s.removeWaiters out).le.waiters = s.le.waiters.filter fun w => !out w := rfl
@[simp] theorem removeWaiters_le_nextArrival (s : State) (out : Waiter → Bool) :
    (s.removeWaiters out).le.nextArrival = s.le.nextArrival := rfl
@[simp] theorem removeWaiters_le_resumeScans (s : State) (out : Waiter → Bool) :
    (s.removeWaiters out).le.resumeScans = s.le.resumeScans := rfl
@[simp] theorem removeWaiters_divider (s : State) (out : Waiter → Bool) :
    (s.removeWaiters out).divider = s.divider := rfl
@[simp] theorem removeWaiters_bsq (s : State) (out : Waiter → Bool) : (s.removeWaiters out).bsq = s.bsq := rfl
@[simp] theorem removeWaiters_ptc (s : State) (out : Waiter → Bool) : (s.removeWaiters out).ptc = s.ptc := rfl
@[simp] theorem removeWaiters_mgp (s : State) (out : Waiter → Bool) : (s.removeWaiters out).mgp = s.mgp := rfl
@[simp] theorem removeWaiters_freeDraws (s : State) (out : Waiter → Bool) :
    (s.removeWaiters out).freeDraws = s.freeDraws := rfl
@[simp] theorem removeWaiters_inputs (s : State) (out : Waiter → Bool) : (s.removeWaiters out).inputs = s.inputs := rfl
@[simp] theorem removeWaiters_pending (s : State) (out : Waiter → Bool) :
    (s.removeWaiters out).pending = s.pending := rfl
@[simp] theorem removeWaiters_port (s : State) (out : Waiter → Bool) (p : PortId) :
    (s.removeWaiters out).port p = s.port p := rfl
@[simp] theorem removeWaiters_region (s : State) (out : Waiter → Bool) (r : RegionId) :
    (s.removeWaiters out).region r = s.region r := rfl
@[simp] theorem removeWaiters_lease (s : State) (out : Waiter → Bool) (id : LeaseId) :
    (s.removeWaiters out).lease id = s.lease id := rfl
@[simp] theorem removeWaiters_target (s : State) (out : Waiter → Bool) (x : TargetId) :
    (s.removeWaiters out).target x = s.target x := rfl

/-! ## `setHold` -/

@[simp] theorem setHold_mu (s : State) (h : Option BusHold) : (s.setHold h).mu = s.mu := rfl
@[simp] theorem setHold_le (s : State) (h : Option BusHold) : (s.setHold h).le = s.le := rfl
@[simp] theorem setHold_divider (s : State) (h : Option BusHold) : (s.setHold h).divider = s.divider := rfl
@[simp] theorem setHold_bsq_hold (s : State) (h : Option BusHold) : (s.setHold h).bsq.hold = h := rfl
@[simp] theorem setHold_bsq_pointers (s : State) (h : Option BusHold) :
    (s.setHold h).bsq.pointers = s.bsq.pointers := rfl
@[simp] theorem setHold_bsq_targets (s : State) (h : Option BusHold) : (s.setHold h).bsq.targets = s.bsq.targets := rfl
@[simp] theorem setHold_bsq_busTimeout (s : State) (h : Option BusHold) :
    (s.setHold h).bsq.busTimeout = s.bsq.busTimeout := rfl
@[simp] theorem setHold_ptc (s : State) (h : Option BusHold) : (s.setHold h).ptc = s.ptc := rfl
@[simp] theorem setHold_mgp (s : State) (h : Option BusHold) : (s.setHold h).mgp = s.mgp := rfl
@[simp] theorem setHold_freeDraws (s : State) (h : Option BusHold) : (s.setHold h).freeDraws = s.freeDraws := rfl
@[simp] theorem setHold_inputs (s : State) (h : Option BusHold) : (s.setHold h).inputs = s.inputs := rfl
@[simp] theorem setHold_pending (s : State) (h : Option BusHold) : (s.setHold h).pending = s.pending := rfl
@[simp] theorem setHold_port (s : State) (h : Option BusHold) (p : PortId) : (s.setHold h).port p = s.port p := rfl
@[simp] theorem setHold_region (s : State) (h : Option BusHold) (r : RegionId) :
    (s.setHold h).region r = s.region r := rfl
@[simp] theorem setHold_lease (s : State) (h : Option BusHold) (id : LeaseId) :
    (s.setHold h).lease id = s.lease id := rfl
@[simp] theorem setHold_target (s : State) (h : Option BusHold) (x : TargetId) :
    (s.setHold h).target x = s.target x := rfl

/-! ## `raise` -/

@[simp] theorem raise_mu (s : State) (e : Event) : (s.raise e).mu = s.mu := rfl
@[simp] theorem raise_le (s : State) (e : Event) : (s.raise e).le = s.le := rfl
@[simp] theorem raise_divider (s : State) (e : Event) : (s.raise e).divider = s.divider := rfl
@[simp] theorem raise_bsq (s : State) (e : Event) : (s.raise e).bsq = s.bsq := rfl
@[simp] theorem raise_ptc (s : State) (e : Event) : (s.raise e).ptc = s.ptc := rfl
@[simp] theorem raise_mgp_crc (s : State) (e : Event) : (s.raise e).mgp.crc = s.mgp.crc := rfl
@[simp] theorem raise_mgp_tickDiv (s : State) (e : Event) : (s.raise e).mgp.tickDiv = s.mgp.tickDiv := rfl
@[simp] theorem raise_mgp_slotsLowMark (s : State) (e : Event) :
    (s.raise e).mgp.slotsLowMark = s.mgp.slotsLowMark := rfl
@[simp] theorem raise_mgp_flags (s : State) (e : Event) : (s.raise e).mgp.flags = s.mgp.flags ||| e.mask := rfl
@[simp] theorem raise_mgp_enables (s : State) (e : Event) : (s.raise e).mgp.enables = s.mgp.enables := rfl
@[simp] theorem raise_mgp_hostCmd (s : State) (e : Event) : (s.raise e).mgp.hostCmd = s.mgp.hostCmd := rfl
@[simp] theorem raise_mgp_hostArg (s : State) (e : Event) : (s.raise e).mgp.hostArg = s.mgp.hostArg := rfl
@[simp] theorem raise_mgp_hostStatus (s : State) (e : Event) : (s.raise e).mgp.hostStatus = s.mgp.hostStatus := rfl
@[simp] theorem raise_mgp_unit (s : State) (e : Event) : (s.raise e).mgp.unit = s.mgp.unit := rfl
@[simp] theorem raise_mgp_groupStage (s : State) (e : Event) : (s.raise e).mgp.groupStage = s.mgp.groupStage := rfl
@[simp] theorem raise_mgp_regionStage (s : State) (e : Event) : (s.raise e).mgp.regionStage = s.mgp.regionStage := rfl
@[simp] theorem raise_mgp_tableSelect (s : State) (e : Event) : (s.raise e).mgp.tableSelect = s.mgp.tableSelect := rfl
@[simp] theorem raise_mgp_tableIndex (s : State) (e : Event) : (s.raise e).mgp.tableIndex = s.mgp.tableIndex := rfl
@[simp] theorem raise_mgp_tableData (s : State) (e : Event) : (s.raise e).mgp.tableData = s.mgp.tableData := rfl
@[simp] theorem raise_mgp_receiver (s : State) (e : Event) : (s.raise e).mgp.receiver = s.mgp.receiver := rfl
@[simp] theorem raise_freeDraws (s : State) (e : Event) : (s.raise e).freeDraws = s.freeDraws := rfl
@[simp] theorem raise_inputs (s : State) (e : Event) : (s.raise e).inputs = s.inputs := rfl
@[simp] theorem raise_pending (s : State) (e : Event) : (s.raise e).pending = s.pending := rfl
@[simp] theorem raise_port (s : State) (e : Event) (p : PortId) : (s.raise e).port p = s.port p := rfl
@[simp] theorem raise_region (s : State) (e : Event) (r : RegionId) : (s.raise e).region r = s.region r := rfl
@[simp] theorem raise_lease (s : State) (e : Event) (id : LeaseId) : (s.raise e).lease id = s.lease id := rfl
@[simp] theorem raise_target (s : State) (e : Event) (x : TargetId) : (s.raise e).target x = s.target x := rfl

/-! ## `setReceiver` -/

@[simp] theorem setReceiver_mu (s : State) (rc : Receiver) : (s.setReceiver rc).mu = s.mu := rfl
@[simp] theorem setReceiver_le (s : State) (rc : Receiver) : (s.setReceiver rc).le = s.le := rfl
@[simp] theorem setReceiver_divider (s : State) (rc : Receiver) : (s.setReceiver rc).divider = s.divider := rfl
@[simp] theorem setReceiver_bsq (s : State) (rc : Receiver) : (s.setReceiver rc).bsq = s.bsq := rfl
@[simp] theorem setReceiver_ptc (s : State) (rc : Receiver) : (s.setReceiver rc).ptc = s.ptc := rfl
@[simp] theorem setReceiver_mgp_crc (s : State) (rc : Receiver) : (s.setReceiver rc).mgp.crc = s.mgp.crc := rfl
@[simp] theorem setReceiver_mgp_tickDiv (s : State) (rc : Receiver) :
    (s.setReceiver rc).mgp.tickDiv = s.mgp.tickDiv := rfl
@[simp] theorem setReceiver_mgp_slotsLowMark (s : State) (rc : Receiver) :
    (s.setReceiver rc).mgp.slotsLowMark = s.mgp.slotsLowMark := rfl
@[simp] theorem setReceiver_mgp_flags (s : State) (rc : Receiver) : (s.setReceiver rc).mgp.flags = s.mgp.flags := rfl
@[simp] theorem setReceiver_mgp_enables (s : State) (rc : Receiver) :
    (s.setReceiver rc).mgp.enables = s.mgp.enables := rfl
@[simp] theorem setReceiver_mgp_hostCmd (s : State) (rc : Receiver) :
    (s.setReceiver rc).mgp.hostCmd = s.mgp.hostCmd := rfl
@[simp] theorem setReceiver_mgp_hostArg (s : State) (rc : Receiver) :
    (s.setReceiver rc).mgp.hostArg = s.mgp.hostArg := rfl
@[simp] theorem setReceiver_mgp_hostStatus (s : State) (rc : Receiver) :
    (s.setReceiver rc).mgp.hostStatus = s.mgp.hostStatus := rfl
@[simp] theorem setReceiver_mgp_unit (s : State) (rc : Receiver) : (s.setReceiver rc).mgp.unit = s.mgp.unit := rfl
@[simp] theorem setReceiver_mgp_groupStage (s : State) (rc : Receiver) :
    (s.setReceiver rc).mgp.groupStage = s.mgp.groupStage := rfl
@[simp] theorem setReceiver_mgp_regionStage (s : State) (rc : Receiver) :
    (s.setReceiver rc).mgp.regionStage = s.mgp.regionStage := rfl
@[simp] theorem setReceiver_mgp_tableSelect (s : State) (rc : Receiver) :
    (s.setReceiver rc).mgp.tableSelect = s.mgp.tableSelect := rfl
@[simp] theorem setReceiver_mgp_tableIndex (s : State) (rc : Receiver) :
    (s.setReceiver rc).mgp.tableIndex = s.mgp.tableIndex := rfl
@[simp] theorem setReceiver_mgp_tableData (s : State) (rc : Receiver) :
    (s.setReceiver rc).mgp.tableData = s.mgp.tableData := rfl
@[simp] theorem setReceiver_mgp_receiver (s : State) (rc : Receiver) : (s.setReceiver rc).mgp.receiver = rc := rfl
@[simp] theorem setReceiver_freeDraws (s : State) (rc : Receiver) : (s.setReceiver rc).freeDraws = s.freeDraws := rfl
@[simp] theorem setReceiver_inputs (s : State) (rc : Receiver) : (s.setReceiver rc).inputs = s.inputs := rfl
@[simp] theorem setReceiver_pending (s : State) (rc : Receiver) : (s.setReceiver rc).pending = s.pending := rfl
@[simp] theorem setReceiver_port (s : State) (rc : Receiver) (p : PortId) : (s.setReceiver rc).port p = s.port p := rfl
@[simp] theorem setReceiver_region (s : State) (rc : Receiver) (r : RegionId) :
    (s.setReceiver rc).region r = s.region r := rfl
@[simp] theorem setReceiver_lease (s : State) (rc : Receiver) (id : LeaseId) :
    (s.setReceiver rc).lease id = s.lease id := rfl
@[simp] theorem setReceiver_target (s : State) (rc : Receiver) (x : TargetId) :
    (s.setReceiver rc).target x = s.target x := rfl

/-! ## `askScan` -/

@[simp] theorem askScan_mu (s : State) : (s.askScan).mu = s.mu := rfl
@[simp] theorem askScan_le_leases (s : State) : (s.askScan).le.leases = s.le.leases := rfl
@[simp] theorem askScan_le_freeSlots (s : State) : (s.askScan).le.freeSlots = s.le.freeSlots := rfl
@[simp] theorem askScan_le_waiters (s : State) : (s.askScan).le.waiters = s.le.waiters := rfl
@[simp] theorem askScan_le_nextArrival (s : State) : (s.askScan).le.nextArrival = s.le.nextArrival := rfl
@[simp] theorem askScan_le_resumeScans (s : State) : (s.askScan).le.resumeScans = s.le.resumeScans + 1 := rfl
@[simp] theorem askScan_divider (s : State) : (s.askScan).divider = s.divider := rfl
@[simp] theorem askScan_bsq (s : State) : (s.askScan).bsq = s.bsq := rfl
@[simp] theorem askScan_ptc (s : State) : (s.askScan).ptc = s.ptc := rfl
@[simp] theorem askScan_mgp (s : State) : (s.askScan).mgp = s.mgp := rfl
@[simp] theorem askScan_freeDraws (s : State) : (s.askScan).freeDraws = s.freeDraws := rfl
@[simp] theorem askScan_inputs (s : State) : (s.askScan).inputs = s.inputs := rfl
@[simp] theorem askScan_pending (s : State) : (s.askScan).pending = s.pending := rfl
@[simp] theorem askScan_port (s : State) (p : PortId) : (s.askScan).port p = s.port p := rfl
@[simp] theorem askScan_region (s : State) (r : RegionId) : (s.askScan).region r = s.region r := rfl
@[simp] theorem askScan_lease (s : State) (id : LeaseId) : (s.askScan).lease id = s.lease id := rfl
@[simp] theorem askScan_target (s : State) (x : TargetId) : (s.askScan).target x = s.target x := rfl

/-! ## `finish` -/

@[simp] theorem finish_mu (s : State) (code : BitVec 4) (result : HostResult) : (s.finish code result).mu = s.mu := rfl
@[simp] theorem finish_le (s : State) (code : BitVec 4) (result : HostResult) : (s.finish code result).le = s.le := rfl
@[simp] theorem finish_divider (s : State) (code : BitVec 4) (result : HostResult) :
    (s.finish code result).divider = s.divider := rfl
@[simp] theorem finish_bsq (s : State) (code : BitVec 4) (result : HostResult) :
    (s.finish code result).bsq = s.bsq := rfl
@[simp] theorem finish_ptc (s : State) (code : BitVec 4) (result : HostResult) :
    (s.finish code result).ptc = s.ptc := rfl
@[simp] theorem finish_mgp_crc (s : State) (code : BitVec 4) (result : HostResult) :
    (s.finish code result).mgp.crc = s.mgp.crc := rfl
@[simp] theorem finish_mgp_tickDiv (s : State) (code : BitVec 4) (result : HostResult) :
    (s.finish code result).mgp.tickDiv = s.mgp.tickDiv := rfl
@[simp] theorem finish_mgp_slotsLowMark (s : State) (code : BitVec 4) (result : HostResult) :
    (s.finish code result).mgp.slotsLowMark = s.mgp.slotsLowMark := rfl
@[simp] theorem finish_mgp_flags (s : State) (code : BitVec 4) (result : HostResult) :
    (s.finish code result).mgp.flags = s.mgp.flags ||| Event.cmdDone.mask := rfl
@[simp] theorem finish_mgp_enables (s : State) (code : BitVec 4) (result : HostResult) :
    (s.finish code result).mgp.enables = s.mgp.enables := rfl
@[simp] theorem finish_mgp_hostCmd (s : State) (code : BitVec 4) (result : HostResult) :
    (s.finish code result).mgp.hostCmd = s.mgp.hostCmd := rfl
@[simp] theorem finish_mgp_hostArg (s : State) (code : BitVec 4) (result : HostResult) :
    (s.finish code result).mgp.hostArg = s.mgp.hostArg := rfl
@[simp] theorem finish_mgp_hostStatus (s : State) (code : BitVec 4) (result : HostResult) :
    (s.finish code result).mgp.hostStatus = { code := code, result := result } := rfl
@[simp] theorem finish_mgp_unit (s : State) (code : BitVec 4) (result : HostResult) :
    (s.finish code result).mgp.unit = .idle := rfl
@[simp] theorem finish_mgp_groupStage (s : State) (code : BitVec 4) (result : HostResult) :
    (s.finish code result).mgp.groupStage = s.mgp.groupStage := rfl
@[simp] theorem finish_mgp_regionStage (s : State) (code : BitVec 4) (result : HostResult) :
    (s.finish code result).mgp.regionStage = s.mgp.regionStage := rfl
@[simp] theorem finish_mgp_tableSelect (s : State) (code : BitVec 4) (result : HostResult) :
    (s.finish code result).mgp.tableSelect = s.mgp.tableSelect := rfl
@[simp] theorem finish_mgp_tableIndex (s : State) (code : BitVec 4) (result : HostResult) :
    (s.finish code result).mgp.tableIndex = s.mgp.tableIndex := rfl
@[simp] theorem finish_mgp_tableData (s : State) (code : BitVec 4) (result : HostResult) :
    (s.finish code result).mgp.tableData = s.mgp.tableData := rfl
@[simp] theorem finish_mgp_receiver (s : State) (code : BitVec 4) (result : HostResult) :
    (s.finish code result).mgp.receiver = s.mgp.receiver := rfl
@[simp] theorem finish_freeDraws (s : State) (code : BitVec 4) (result : HostResult) :
    (s.finish code result).freeDraws = s.freeDraws := rfl
@[simp] theorem finish_inputs (s : State) (code : BitVec 4) (result : HostResult) :
    (s.finish code result).inputs = s.inputs := rfl
@[simp] theorem finish_pending (s : State) (code : BitVec 4) (result : HostResult) :
    (s.finish code result).pending = s.pending := rfl
@[simp] theorem finish_port (s : State) (code : BitVec 4) (result : HostResult) (p : PortId) :
    (s.finish code result).port p = s.port p := rfl
@[simp] theorem finish_region (s : State) (code : BitVec 4) (result : HostResult) (r : RegionId) :
    (s.finish code result).region r = s.region r := rfl
@[simp] theorem finish_lease (s : State) (code : BitVec 4) (result : HostResult) (id : LeaseId) :
    (s.finish code result).lease id = s.lease id := rfl
@[simp] theorem finish_target (s : State) (code : BitVec 4) (result : HostResult) (x : TargetId) :
    (s.finish code result).target x = s.target x := rfl

end Sys2Proof.Machine
end

