-- ==== Sys2Proof/Laws/Tables.lean ====
section
/-! SUPPORT. Reading a table after a write to it: ports, regions, targets, leases, and a table changed everywhere. -/

namespace Sys2Proof.Machine

/-- A vector read after one element is set. -/
theorem vector_get_set {α : Type} {n : Nat} (v : Vector α n) (i j : Fin n) (x : α) :
    (v.set i x)[j] = if i = j then x else v[j] := by
  simp only [Fin.getElem_fin, Vector.getElem_set, Fin.ext_iff]

@[simp] theorem port_updPort (s : State) (q : PortId) (f : Port → Port) (p : PortId) :
    (s.updPort q f).port p = if q = p then f (s.port p) else s.port p := by
  unfold State.updPort State.port
  rw [vector_get_set]
  split <;> simp_all

theorem port_updPort_self (s : State) (q : PortId) (f : Port → Port) : (s.updPort q f).port q = f (s.port q) := by
  simp

theorem port_updPort_ne (s : State) {q p : PortId} (f : Port → Port) (h : q ≠ p) :
    (s.updPort q f).port p = s.port p := by
  simp [h]

/-- A change of a port that changes nothing. -/
theorem updPort_eq_self {s : State} {p : PortId} {f : Port → Port} (h : f (s.port p) = s.port p) :
    s.updPort p f = s := by
  have : s.ptc.ports.set p (f s.ptc.ports[p]) = s.ptc.ports := by
    apply Vector.ext
    intro i hi
    rw [Vector.getElem_set]
    split
    · next e => subst e; exact h
    · rfl
  unfold State.updPort
  rw [this]

@[simp] theorem port_updRequester (s : State) (q : PortId) (f : Requester → Requester) (p : PortId) :
    (s.updRequester q f).port p =
      if q = p then { s.port p with requester := f (s.port p).requester } else s.port p :=
  port_updPort s q _ p

@[simp] theorem port_updAccess (s : State) (q : PortId) (f : AccessRecord → AccessRecord) (p : PortId) :
    (s.updAccess q f).port p = if q = p then { s.port p with access := f (s.port p).access } else s.port p :=
  port_updPort s q _ p

@[simp] theorem port_answer (s : State) (q : PortId) (a : Answer) (p : PortId) :
    (s.answer q a).port p = if q = p then { s.port p with answer := some a } else s.port p :=
  port_updPort s q _ p

@[simp] theorem port_placeNotice (s : State) (q : PortId) (tag : Tag) (n : ClaimNotice) (p : PortId) :
    (s.placeNotice q tag n).port p =
      if q = p then { s.port p with board := (s.port p).board.set tag (some n) } else s.port p :=
  port_updPort s q _ p

@[simp] theorem region_updRegion (s : State) (k : RegionId) (f : Region → Region) (r : RegionId) :
    (s.updRegion k f).region r = if k = r then f (s.region r) else s.region r := by
  unfold State.updRegion State.region
  rw [vector_get_set]
  split <;> simp_all

@[simp] theorem target_updTarget (s : State) (k : TargetId) (f : Target → Target) (x : TargetId) :
    (s.updTarget k f).target x = if k = x then f (s.target x) else s.target x := by
  unfold State.updTarget State.target
  rw [vector_get_set]
  split <;> simp_all

@[simp] theorem mapTable_get {α : Type} {n : Nat} (v : Vector α n) (f : Fin n → α → α) (i : Fin n) :
    (mapTable v f)[i] = f i v[i] := by
  simp [mapTable]

/-- Two states with equal fields and equal ports have equal port tables. -/
theorem ports_ext {s t : State} (h : ∀ p : PortId, s.port p = t.port p) : s.ptc.ports = t.ptc.ports := by
  apply Vector.ext
  intro i hi
  exact h ⟨i, hi⟩

theorem leases_ext {s t : State} (h : ∀ id : LeaseId, s.lease id = t.lease id) : s.le.leases = t.le.leases := by
  apply Vector.ext
  intro i hi
  exact h ⟨i, hi⟩

theorem regions_ext {s t : State} (h : ∀ r : RegionId, s.region r = t.region r) : s.mu.regions = t.mu.regions := by
  apply Vector.ext
  intro i hi
  exact h ⟨i, hi⟩

theorem targets_ext {s t : State} (h : ∀ x : TargetId, s.target x = t.target x) : s.bsq.targets = t.bsq.targets := by
  apply Vector.ext
  intro i hi
  exact h ⟨i, hi⟩

/-! ## The lists that name a table's places -/

@[simp] theorem mem_allPorts (p : PortId) : p ∈ allPorts := by
  revert p
  decide

@[simp] theorem mem_allLeases (id : LeaseId) : id ∈ allLeases := List.mem_finRange id

@[simp] theorem mem_allTags (t : Tag) : t ∈ allTags := by
  revert t
  decide

@[simp] theorem mem_allGroups (g : GroupId) : g ∈ allGroups := by
  revert g
  decide

theorem mem_slotsOf (g : GroupId) (r : RegionId) : r ∈ slotsOf g ↔ groupOf r = g := by
  revert g r
  decide

/-- A search of the Lease Table that finds a slot finds one that passes. -/
theorem find_allLeases_some {test : LeaseId → Bool} {id : LeaseId} (h : allLeases.find? test = some id) :
    test id = true :=
  List.find?_some h

/-- A search of the Lease Table that finds nothing: no slot passes. -/
theorem find_allLeases_none {test : LeaseId → Bool} (h : allLeases.find? test = none) (id : LeaseId) :
    test id = false := by
  have := List.find?_eq_none.mp h id (mem_allLeases id)
  simpa using this

/-- A search of the Lease Table finds the lowest slot that passes the test. -/
theorem find_allLeases_iff {test : LeaseId → Bool} {id : LeaseId} :
    allLeases.find? test = some id ↔ test id = true ∧ ∀ j : LeaseId, j < id → test j = false := by
  have low : ∀ k : LeaseId, allLeases.find? test = some k → ∀ j : LeaseId, j < k → test j = false := by
    intro k h j hj
    obtain ⟨_, pre, post, hl, hp⟩ := List.find?_eq_some_iff_append.mp h
    have hm : j ∈ pre ++ k :: post := hl ▸ mem_allLeases j
    have hs : (pre ++ k :: post).Pairwise (· < ·) := hl ▸ List.pairwise_lt_finRange 64
    rcases List.mem_append.mp hm with hm | hm
    · simpa using hp j hm
    rcases List.mem_cons.mp hm with rfl | hm
    · exact absurd hj (lt_irrefl _)
    · exact absurd hj (not_lt_of_gt ((List.pairwise_cons.mp (List.pairwise_append.mp hs).2.1).1 j hm))
  refine ⟨fun h => ⟨find_allLeases_some h, low id h⟩, fun ⟨h, hlow⟩ => ?_⟩
  cases hf : allLeases.find? test with
  | none => simp [find_allLeases_none hf id] at h
  | some k =>
    have hk := find_allLeases_some hf
    rcases lt_trichotomy k id with hlt | rfl | hlt
    · simp [hlow k hlt] at hk
    · rfl
    · simp [low k hf id hlt] at h

theorem any_allLeases {test : LeaseId → Bool} : allLeases.any test = true ↔ ∃ id, test id = true := by
  simp [List.any_eq_true]

theorem lowestFree_state {s : State} {id : LeaseId} (h : s.lowestFree = some id) : (s.lease id).state = .free := by
  simpa using find_allLeases_some h

end Sys2Proof.Machine
end

