-- ==== Sys2Proof/Laws/LeaseWork.lean ====
section
/-! SUPPORT. The frame of the Lease Engine: its operations change the Lease Table with its count, the Wait List, the notice
boards and tombstone counts, and flags, and nothing else. One lemma per operation. -/

namespace Sys2Proof.Machine

/-- What every operation of the Lease Engine leaves as it was. -/
structure LeaseWork (s t : State) : Prop where
  mu : t.mu = s.mu
  divider : t.divider = s.divider
  bsq : t.bsq = s.bsq
  threshold : t.ptc.threshold = s.ptc.threshold
  limit : t.ptc.limit = s.ptc.limit
  nextArrival : t.le.nextArrival = s.le.nextArrival
  resumeScans : t.le.resumeScans = s.le.resumeScans
  mgp : t.mgp = { s.mgp with flags := t.mgp.flags }
  freeDraws : t.freeDraws = s.freeDraws
  inputs : t.inputs = s.inputs
  pending : t.pending = s.pending
  port : ∀ p : PortId, t.port p = { s.port p with board := (t.port p).board, tombstones := (t.port p).tombstones }

namespace LeaseWork

theorem refl (s : State) : LeaseWork s s := by
  constructor <;> first | rfl | (intro p; rfl)

theorem trans {s t u : State} (h : LeaseWork s t) (k : LeaseWork t u) : LeaseWork s u where
  mu := k.mu.trans h.mu
  divider := k.divider.trans h.divider
  bsq := k.bsq.trans h.bsq
  threshold := k.threshold.trans h.threshold
  limit := k.limit.trans h.limit
  nextArrival := k.nextArrival.trans h.nextArrival
  resumeScans := k.resumeScans.trans h.resumeScans
  mgp := by rw [k.mgp, h.mgp]
  freeDraws := k.freeDraws.trans h.freeDraws
  inputs := k.inputs.trans h.inputs
  pending := k.pending.trans h.pending
  port := fun p => by rw [k.port p, h.port p]

theorem region {s t : State} (h : LeaseWork s t) (r : RegionId) : t.region r = s.region r := by
  unfold State.region
  rw [h.mu]

theorem target {s t : State} (h : LeaseWork s t) (x : TargetId) : t.target x = s.target x := by
  unfold State.target
  rw [h.bsq]

theorem requester {s t : State} (h : LeaseWork s t) (p : PortId) : (t.port p).requester = (s.port p).requester := by
  rw [h.port p]

theorem access {s t : State} (h : LeaseWork s t) (p : PortId) : (t.port p).access = (s.port p).access := by
  rw [h.port p]

/-- A fold of such operations is one. -/
theorem foldl {α : Type} (f : State → α → State) (h : ∀ s a, LeaseWork s (f s a)) (l : List α) (s : State) :
    LeaseWork s (l.foldl f s) := by
  induction l generalizing s with
  | nil => exact refl s
  | cons a l ih => exact (h s a).trans (ih (f s a))

end LeaseWork

/-! ## Single operations -/

theorem updPort_leaseWork (q : PortId) (f : Port → Port) (s : State)
    (h : ∀ x : Port, f x = { x with board := (f x).board, tombstones := (f x).tombstones }) :
    LeaseWork s (s.updPort q f) := by
  constructor <;> try rfl
  intro p
  rw [port_updPort]
  split
  · exact h _
  · rfl

theorem setWaiters_leaseWork (ws : List Waiter) (s : State) : LeaseWork s (s.setWaiters ws) := by
  constructor <;> first | rfl | (intro p; rfl)

theorem removeWaiters_leaseWork (out : Waiter → Bool) (s : State) : LeaseWork s (s.removeWaiters out) :=
  setWaiters_leaseWork _ s

theorem raise_leaseWork (e : Event) (s : State) : LeaseWork s (s.raise e) := by
  constructor <;> first | rfl | (intro p; rfl)

theorem placeNotice_leaseWork (p : PortId) (tag : Tag) (n : ClaimNotice) (s : State) :
    LeaseWork s (s.placeNotice p tag n) :=
  updPort_leaseWork p _ s fun _ => rfl

theorem uncountTombstone_leaseWork (l : Lease) (s : State) : LeaseWork s (s.uncountTombstone l) := by
  unfold State.uncountTombstone
  split
  · exact updPort_leaseWork _ _ s fun _ => rfl
  · exact .refl s

theorem countTombstone_leaseWork (l : Lease) (s : State) : LeaseWork s (s.countTombstone l) := by
  unfold State.countTombstone
  split
  · exact updPort_leaseWork _ _ s fun _ => rfl
  · exact .refl s

theorem putLease_leaseWork (id : LeaseId) (l : Lease) (s : State) : LeaseWork s (s.putLease id l) := by
  unfold State.putLease
  refine .trans ?_ ((uncountTombstone_leaseWork _ _).trans (countTombstone_leaseWork _ _))
  constructor <;> first | rfl | (intro p; rfl)

theorem freeLease_leaseWork (id : LeaseId) (s : State) : LeaseWork s (s.freeLease id) := putLease_leaseWork id _ s

theorem weighSlotsLow_leaseWork (before : Nat) (s : State) : LeaseWork s (s.weighSlotsLow before) := by
  unfold State.weighSlotsLow
  split
  · exact raise_leaseWork _ s
  · exact .refl s

theorem grantLease_leaseWork (id : LeaseId) (holder : PortId) (region : RegionId) (range : AddrRange) (mode : Mode)
    (priority : Priority) (requested : Nat) (s : State) :
    LeaseWork s (s.grantLease id holder region range mode priority requested) :=
  (putLease_leaseWork id _ s).trans (weighSlotsLow_leaseWork _ _)

theorem grantWaiter_leaseWork (id : LeaseId) (w : Waiter) (s : State) : LeaseWork s (s.grantWaiter id w) :=
  (grantLease_leaseWork id _ _ _ _ _ _ s).trans (placeNotice_leaseWork _ _ _ _)

theorem dropWaiters_leaseWork (out : Waiter → Bool) (reason : DropReason) (s : State) :
    LeaseWork s (s.dropWaiters out reason) :=
  (setWaiters_leaseWork _ s).trans (LeaseWork.foldl _ (fun s (w : Waiter) => placeNotice_leaseWork w.requester w.tag _ s) _ _)

theorem revoke_leaseWork (x : RevokeReason) (id : LeaseId) (s : State) : LeaseWork s (s.revoke x id) := by
  unfold State.revoke
  dsimp only
  split
  · exact .refl s
  split
  · exact putLease_leaseWork id _ s
  split
  · exact freeLease_leaseWork id s
  · exact putLease_leaseWork id _ s

theorem revokeAll_leaseWork (x : RevokeReason) (which : Lease → Bool) (s : State) :
    LeaseWork s (s.revokeAll x which) := by
  refine LeaseWork.foldl _ (fun s id => ?_) _ s
  split
  · exact revoke_leaseWork x id s
  · exact .refl s

theorem clearSlot_leaseWork (p : PortId) (id : LeaseId) (s : State) : LeaseWork s (s.clearSlot p id) := by
  unfold State.clearSlot
  dsimp only
  split
  · exact .refl s
  split
  · exact .refl s
  · exact revoke_leaseWork _ id s
  · exact putLease_leaseWork id _ s
  · exact freeLease_leaseWork id s

theorem freeTombstones_leaseWork (p : PortId) (s : State) : LeaseWork s (s.freeTombstones p) := by
  refine LeaseWork.foldl _ (fun s id => ?_) _ s
  split
  · exact freeLease_leaseWork id s
  · exact .refl s

theorem expireLeases_leaseWork (s : State) : LeaseWork s s.expireLeases := by
  unfold State.expireLeases
  split
  · exact (revokeAll_leaseWork _ _ s).trans (raise_leaseWork _ _)
  · exact .refl s

/-! ## The grant scan -/

theorem scanWalk_leaseWork (ahead ws : List Waiter) (s : State) : LeaseWork s (scanWalk ahead ws s) := by
  induction ws generalizing ahead s with
  | nil => exact setWaiters_leaseWork ahead s
  | cons w ws ih =>
    unfold scanWalk
    split
    · exact ih _ s
    split
    · exact ih _ s
    split
    · exact setWaiters_leaseWork _ s
    · exact (grantWaiter_leaseWork _ w s).trans (ih ahead _)

theorem grantScan_leaseWork (s : State) : LeaseWork s s.grantScan := scanWalk_leaseWork [] _ s

theorem settle_leaseWork (before : State) {s t : State} (h : LeaseWork s t) : LeaseWork s (before.settle t) := by
  unfold State.settle
  split
  · exact h.trans (grantScan_leaseWork t)
  · exact h

theorem clearRequest_leaseWork (p : PortId) (s : State) : LeaseWork s (s.clearRequest p) :=
  settle_leaseWork s
    ((LeaseWork.foldl _ (fun s id => clearSlot_leaseWork p id s) _ s).trans (removeWaiters_leaseWork _ _))

theorem barRequest_leaseWork (who : PortId → Bool) (s : State) : LeaseWork s (s.barRequest who) :=
  ((revokeAll_leaseWork _ _ s).trans (dropWaiters_leaseWork _ _ _)).trans (grantScan_leaseWork _)

theorem retireRequest_leaseWork (r : RegionId) (s : State) : LeaseWork s (s.retireRequest r) :=
  settle_leaseWork s ((revokeAll_leaseWork _ _ s).trans (dropWaiters_leaseWork _ _ _))

theorem expireOne_leaseWork (id : LeaseId) (s : State) : LeaseWork s (s.expireOne id) := by
  unfold State.expireOne
  split
  · exact settle_leaseWork s ((revoke_leaseWork _ id s).trans (raise_leaseWork _ _))
  · exact .refl s

theorem timeOutOne_leaseWork (p : PortId) (tag : Tag) (s : State) : LeaseWork s (s.timeOutOne p tag) :=
  settle_leaseWork s (dropWaiters_leaseWork _ _ s)

theorem tickAtLe_leaseWork (s : State) : LeaseWork s s.tickAtLe := by
  refine settle_leaseWork s (.trans ?_ (dropWaiters_leaseWork _ _ _))
  refine .trans ?_ (setWaiters_leaseWork _ _)
  refine .trans ?_ (expireLeases_leaseWork _)
  constructor <;> first | rfl | (intro p; rfl)

/-- R103: a tick that is sent loads the divider, and LE does the rest. -/
theorem tick_leaseWork {s : State} (h : s.mu.map = .live) :
    LeaseWork { s with divider := tickPeriod s.mgp.tickDiv } s.tick := by
  unfold State.tick
  rw [if_neg (by rw [h]; decide)]
  exact tickAtLe_leaseWork _

theorem tick_of_boot {s : State} (h : s.mu.map = .boot) : s.tick = s := by
  unfold State.tick
  rw [if_pos h]

end Sys2Proof.Machine
end

