-- ==== Sys2Proof/Laws/Leases.lean ====
section
/-! SUPPORT. What the operations of the Lease Engine do to the Lease Table, its count, the Wait List and the boards. -/

namespace Sys2Proof.Machine

/-! ## `putLease` -/

/-- The two changes of tombstone counts leave every field of LE as it was. -/
theorem countTombstone_le (l : Lease) (s : State) : (s.countTombstone l).le = s.le := by
  unfold State.countTombstone
  split <;> rfl

theorem uncountTombstone_le (l : Lease) (s : State) : (s.uncountTombstone l).le = s.le := by
  unfold State.uncountTombstone
  split <;> rfl

theorem putLease_le (id : LeaseId) (l : Lease) (s : State) :
    (s.putLease id l).le =
      { s.le with leases := s.le.leases.set id l
                  freeSlots := freeSlotsAfter s.le.freeSlots (s.lease id).state l.state } := by
  unfold State.putLease
  dsimp only
  rw [countTombstone_le, uncountTombstone_le]

@[simp] theorem lease_putLease (id : LeaseId) (l : Lease) (s : State) (j : LeaseId) :
    (s.putLease id l).lease j = if id = j then l else s.lease j := by
  unfold State.lease
  rw [putLease_le]
  exact vector_get_set _ _ _ _

@[simp] theorem waiters_putLease (id : LeaseId) (l : Lease) (s : State) :
    (s.putLease id l).le.waiters = s.le.waiters := by
  rw [putLease_le]

@[simp] theorem freeSlots_putLease (id : LeaseId) (l : Lease) (s : State) :
    (s.putLease id l).le.freeSlots = freeSlotsAfter s.le.freeSlots (s.lease id).state l.state := by
  rw [putLease_le]

theorem port_uncountTombstone (l : Lease) (s : State) (p : PortId) :
    (s.uncountTombstone l).port p =
      if l.state = .revoked ∧ l.holder = p then { s.port p with tombstones := (s.port p).tombstones - 1 }
      else s.port p := by
  unfold State.uncountTombstone
  split
  · rw [port_updPort]
    split <;> simp_all
  · simp_all

theorem port_countTombstone (l : Lease) (s : State) (p : PortId) :
    (s.countTombstone l).port p =
      if l.state = .revoked ∧ l.holder = p then { s.port p with tombstones := (s.port p).tombstones + 1 }
      else s.port p := by
  unfold State.countTombstone
  split
  · rw [port_updPort]
    split <;> simp_all
  · simp_all

/-- A port after a lease record is written: its tombstone count alone may differ. -/
theorem port_putLease (id : LeaseId) (l : Lease) (s : State) (p : PortId) :
    (s.putLease id l).port p =
      { s.port p with
        tombstones :=
          (if (s.lease id).state = .revoked ∧ (s.lease id).holder = p then (s.port p).tombstones - 1
            else (s.port p).tombstones) +
          if l.state = .revoked ∧ l.holder = p then 1 else 0 } := by
  unfold State.putLease
  rw [port_countTombstone, port_uncountTombstone]
  change (if _ then _ else _) = _
  split <;> split <;> simp_all [State.port]

@[simp] theorem board_putLease (id : LeaseId) (l : Lease) (s : State) (p : PortId) :
    ((s.putLease id l).port p).board = (s.port p).board := by
  rw [port_putLease]

/-- A write that neither makes nor ends a tombstone leaves every port as it was. -/
theorem port_putLease_of_ne_revoked {id : LeaseId} {l : Lease} {s : State} (h : (s.lease id).state ≠ .revoked)
    (k : l.state ≠ .revoked) (p : PortId) : (s.putLease id l).port p = s.port p := by
  rw [port_putLease]
  simp [h, k]

theorem mgp_putLease (id : LeaseId) (l : Lease) (s : State) : (s.putLease id l).mgp = s.mgp := by
  unfold State.putLease State.countTombstone State.uncountTombstone
  dsimp only
  split <;> split <;> rfl

/-- Writing a lease whose state class does not change, and which is no tombstone, changes the one record and nothing else. -/
theorem putLease_eq {id : LeaseId} {l : Lease} {s : State} (hf : (s.lease id).state = .free ↔ l.state = .free)
    (h : (s.lease id).state ≠ .revoked) (k : l.state ≠ .revoked) :
    s.putLease id l = { s with le := { s.le with leases := s.le.leases.set id l } } := by
  unfold State.putLease State.countTombstone State.uncountTombstone freeSlotsAfter
  simp only [h, k, if_false]
  by_cases hl : l.state = .free <;> simp_all

/-! ## Freeing and granting -/

@[simp] theorem lease_freeLease (id : LeaseId) (s : State) (j : LeaseId) :
    (s.freeLease id).lease j = if id = j then Lease.freeWith (s.lease id).generation else s.lease j :=
  lease_putLease id _ s j

theorem lease_raise_weigh (n : Nat) (s : State) (j : LeaseId) : (s.weighSlotsLow n).lease j = s.lease j := by
  unfold State.weighSlotsLow
  split <;> rfl

theorem le_weighSlotsLow (n : Nat) (s : State) : (s.weighSlotsLow n).le = s.le := by
  unfold State.weighSlotsLow
  split <;> rfl

theorem port_weighSlotsLow (n : Nat) (s : State) (p : PortId) : (s.weighSlotsLow n).port p = s.port p := by
  unfold State.weighSlotsLow
  split <;> rfl

theorem lease_grantWaiter (id : LeaseId) (w : Waiter) (s : State) (j : LeaseId) :
    (s.grantWaiter id w).lease j =
      if id = j then
        { generation := (s.lease id).generation + 1#4, state := .held, holder := w.requester, region := w.region
          range := w.range, mode := w.mode, priority := w.priority
          term := cappedTerm w.term (s.region w.region).term
          remaining := cappedTerm w.term (s.region w.region).term
          faults := 0, inFlight := false, reason := none, drainEnd := none }
      else s.lease j := by
  unfold State.grantWaiter State.grantLease
  rw [placeNotice_lease, lease_raise_weigh, lease_putLease]

theorem waiters_grantWaiter (id : LeaseId) (w : Waiter) (s : State) :
    (s.grantWaiter id w).le.waiters = s.le.waiters := by
  unfold State.grantWaiter State.grantLease
  rw [placeNotice_le, le_weighSlotsLow, waiters_putLease]

/-! ## Dropping -/

theorem le_dropWaiters (out : Waiter → Bool) (reason : DropReason) (s : State) :
    (s.dropWaiters out reason).le = { s.le with waiters := s.le.waiters.filter fun w => !out w } := by
  unfold State.dropWaiters
  generalize s.le.waiters.filter out = l
  generalize hs : s.setWaiters (s.le.waiters.filter fun w => !out w) = t
  have ht : t.le = { s.le with waiters := s.le.waiters.filter fun w => !out w } := by rw [← hs]; rfl
  rw [← ht]
  clear hs ht
  induction l generalizing t with
  | nil => rfl
  | cons w l ih => exact (ih _).trans rfl

@[simp] theorem waiters_dropWaiters (out : Waiter → Bool) (reason : DropReason) (s : State) :
    (s.dropWaiters out reason).le.waiters = s.le.waiters.filter fun w => !out w := by
  rw [le_dropWaiters]

@[simp] theorem lease_dropWaiters (out : Waiter → Bool) (reason : DropReason) (s : State) (id : LeaseId) :
    (s.dropWaiters out reason).lease id = s.lease id := by
  unfold State.lease
  rw [le_dropWaiters]

/-! ## Revocation -/

theorem lease_revoke_ne (x : RevokeReason) {id j : LeaseId} (s : State) (h : id ≠ j) :
    (s.revoke x id).lease j = s.lease j := by
  unfold State.revoke
  dsimp only
  split
  · rfl
  split
  · simp [h]
  split
  · simp [h]
  · simp [h]

/-- R73, for a reason that is not SILENT. -/
theorem lease_revoke_self {x : RevokeReason} {id : LeaseId} {s : State} (h : (s.lease id).state = .held)
    (hx : x ≠ .silent) :
    (s.revoke x id).lease id =
      if (s.lease id).inFlight then
        { s.lease id with state := .draining, reason := some x, drainEnd := some .revoked }
      else { s.lease id with state := .revoked, reason := some x } := by
  unfold State.revoke
  simp only [h, ne_eq, not_true_eq_false, if_false, hx]
  split <;> simp

theorem revoke_of_ne_held (x : RevokeReason) {id : LeaseId} {s : State} (h : (s.lease id).state ≠ .held) :
    s.revoke x id = s := by
  unfold State.revoke
  simp [h]

@[simp] theorem waiters_revoke (x : RevokeReason) (id : LeaseId) (s : State) :
    (s.revoke x id).le.waiters = s.le.waiters := by
  unfold State.revoke State.freeLease
  dsimp only
  split
  · rfl
  split
  · simp
  split
  · simp
  · simp

/-! ## The grant scan -/

/-- R96: the walk grants only into FREE slots; every other record stays as it was. -/
theorem lease_scanWalk_of_ne_free (ahead ws : List Waiter) (s : State) (j : LeaseId) (h : (s.lease j).state ≠ .free) :
    (scanWalk ahead ws s).lease j = s.lease j := by
  induction ws generalizing ahead s with
  | nil => rfl
  | cons w ws ih =>
    unfold scanWalk
    split
    · exact ih _ s h
    split
    · exact ih _ s h
    split
    · rfl
    · next id hid =>
      have hne : id ≠ j := fun e => h (e ▸ lowestFree_state hid)
      have hg : (s.grantWaiter id w).lease j = s.lease j := by rw [lease_grantWaiter, if_neg hne]
      rw [ih ahead _ (by rw [hg]; exact h), hg]

theorem lease_grantScan_of_ne_free (s : State) (j : LeaseId) (h : (s.lease j).state ≠ .free) :
    s.grantScan.lease j = s.lease j :=
  lease_scanWalk_of_ne_free [] _ s j h

/-- R96: the waiters the walk leaves are those it began with, in order, some gone. -/
theorem waiters_scanWalk_sublist (ahead ws : List Waiter) (s : State) :
    (scanWalk ahead ws s).le.waiters.Sublist (ahead ++ ws) := by
  induction ws generalizing ahead s with
  | nil => simp [scanWalk]
  | cons w ws ih =>
    unfold scanWalk
    split
    · simpa using ih (ahead ++ [w]) s
    split
    · simpa using ih (ahead ++ [w]) s
    split
    · simp
    · exact (ih ahead _).trans (List.Sublist.append_left (List.sublist_cons_self w ws) ahead)

theorem waiters_grantScan_sublist (s : State) : s.grantScan.le.waiters.Sublist s.le.waiters :=
  waiters_scanWalk_sublist [] _ s

/-- R96: a waiter already passed stays in the list. -/
theorem ahead_scanWalk_sublist (ahead ws : List Waiter) (s : State) :
    ahead.Sublist (scanWalk ahead ws s).le.waiters := by
  induction ws generalizing ahead s with
  | nil => simp [scanWalk]
  | cons w ws ih =>
    unfold scanWalk
    split
    · exact (List.sublist_append_left ahead [w]).trans (ih _ s)
    split
    · exact (List.sublist_append_left ahead [w]).trans (ih _ s)
    split
    · simp
    · exact ih ahead _

end Sys2Proof.Machine
end

