-- ==== Sys2Proof/Laws/Accesses.lean ====
section
/-! SUPPORT. Presentations at the ports: finding and taking one, and one at the command window; the searches of the Lease Table
that an access and LOOKUP make. -/

namespace Sys2Proof.Machine

open Sys2Proof.Safety

/-- R26: whether PTC can take a presentation at a port. -/
theorem canTake_iff {s : State} {p : PortId} :
    s.canTake p = true ↔ (s.port p).access.state = .idle ∧ (s.port p).requester.inReset = false := by
  simp [State.canTake]

/-- R38: the covering lease, in the rule's words; the lowest slot where several would do. -/
theorem cover_iff {s : State} {p : PortId} {dir : Direction} {x : Word} {id : LeaseId} :
    s.cover p dir x = some id ↔
      ((s.lease id).state = .held ∧ (s.lease id).holder = p ∧ (s.lease id).range.contains x = true ∧
        (s.lease id).mode.sufficient dir = true) ∧
      ∀ j : LeaseId, j < id → ¬((s.lease j).state = .held ∧ (s.lease j).holder = p ∧
        (s.lease j).range.contains x = true ∧ (s.lease j).mode.sufficient dir = true) := by
  unfold State.cover
  rw [find_allLeases_iff]
  simp [and_assoc]

/-- R72: the own lease LOOKUP names, in the rule's words; the lowest slot where several would do. -/
theorem ownLease_iff {s : State} {p : PortId} {x : Word} {id : LeaseId} :
    s.ownLease p x = some id ↔
      ((s.lease id).live = true ∧ (s.lease id).holder = p ∧ (s.lease id).range.contains x = true) ∧
      ∀ j : LeaseId, j < id →
        ¬((s.lease j).live = true ∧ (s.lease j).holder = p ∧ (s.lease j).range.contains x = true) := by
  unfold State.ownLease
  rw [find_allLeases_iff]
  simp [and_assoc]

/-- R120: a grant decision is due: the bus is FREE and a port waits. -/
theorem decisionDue_iff {s : State} :
    s.decisionDue = true ↔ s.bsq.hold = none ∧ ∃ p : PortId, (s.port p).access.state = .waitingBus := by
  simp [State.decisionDue, State.noneWaiting]

/-- R26: no port has a presentation standing that it can take. -/
theorem takeablePort_none {s : State} (h : ∀ p : PortId, s.canTake p = true → (s.port p).standing = none) :
    s.takeablePort = none := by
  unfold State.takeablePort
  rw [List.findSome?_eq_none_iff]
  intro p _
  split
  · rename_i hc
    simp [h p hc]
  · rfl

/-- R26: the lowest port with a presentation standing that it can take. -/
theorem takeablePort_some {s : State} {p : PortId} {a : Presentation} (hc : s.canTake p = true)
    (hs : (s.port p).standing = some a) (hq : ∀ q : PortId, q < p → s.canTake q = true → (s.port q).standing = none) :
    s.takeablePort = some (p, a) := by
  have skip : ∀ q : PortId, q < p →
      (if s.canTake q then (s.port q).standing.map fun a => (q, a) else none) = none := by
    intro q h
    split
    · rename_i hcq
      simp [hq q h hcq]
    · rfl
  have here : (if s.canTake p then (s.port p).standing.map fun a => (p, a) else none) = some (p, a) := by simp [hc, hs]
  unfold State.takeablePort allPorts
  fin_cases p <;> simp_all [List.findSome?]

theorem takeStanding_of_none {s : State} {p : PortId} (h : (s.port p).standing = none) : s.takeStanding p = s := by
  simp [State.takeStanding, h]

theorem takeStanding_of_busy {s : State} {p : PortId} (h : s.canTake p = false) : s.takeStanding p = s := by
  unfold State.takeStanding
  rw [h]
  split <;> simp_all

/-- R26, R153: the presentation standing at a port that can take one is taken and judged. -/
theorem takeStanding_of_some {s : State} {p : PortId} {a : Presentation} (h : (s.port p).standing = some a)
    (hc : s.canTake p = true) :
    s.takeStanding p = (s.updPort p fun q => { q with standing := none }).carryOut p a := by
  simp [State.takeStanding, h, hc]

/-- R26: a port with an IDLE record and no reset, at which nothing stands, takes a presentation at once. -/
theorem present_of_idle {s : State} {p : PortId} (a : Presentation) (h : (s.port p).access.state = .idle)
    (hr : (s.port p).requester.inReset = false) (hs : (s.port p).standing = none) :
    s.present p a = s.carryOut p a := by
  unfold State.present
  simp [takeStanding_of_none hs, canTake_iff.mpr ⟨h, hr⟩]

/-- R26: a port that cannot take a presentation lets it stand. -/
theorem present_of_busy {s : State} {p : PortId} (a : Presentation)
    (h : (s.port p).access.state ≠ .idle ∨ (s.port p).requester.inReset = true) :
    s.present p a = s.updPort p fun q => { q with standing := some (q.standing.getD a) } := by
  have hc : s.canTake p = false := by
    unfold State.canTake
    rcases h with h | h <;> simp [h]
  unfold State.present
  simp [takeStanding_of_busy hc, hc]

/-! ## What stands at the ports -/

/-- What stands untaken at every port is as it was. -/
def StandingKept (s t : State) : Prop := ∀ p : PortId, (t.port p).standing = (s.port p).standing

namespace StandingKept

theorem refl (s : State) : StandingKept s s := fun _ => rfl

theorem trans {s t u : State} (h : StandingKept s t) (k : StandingKept t u) : StandingKept s u :=
  fun p => (k p).trans (h p)

theorem of_leaseWork {s t : State} (h : LeaseWork s t) : StandingKept s t := fun p => by rw [h.port p]

theorem updPort (q : PortId) (f : Port → Port) (s : State) (h : ∀ x : Port, (f x).standing = x.standing) :
    StandingKept s (s.updPort q f) := by
  intro p
  rw [port_updPort]
  split
  · exact h _
  · rfl

end StandingKept

theorem countFault_standing (p : PortId) (s : State) : StandingKept s (s.countFault p) := by
  have h1 : ∀ (f : Requester → Requester) (s : State), StandingKept s (s.updRequester p f) :=
    fun f s => .updPort p _ s fun _ => rfl
  unfold State.countFault
  dsimp only
  split
  · exact (h1 _ s).trans (((h1 _ _).trans (.of_leaseWork (raise_leaseWork _ _))).trans (.of_leaseWork (barRequest_leaseWork _ _)))
  · exact h1 _ s

theorem weighClaim_standing (w : Waiter) (s : State) : StandingKept s (s.weighClaim w).1 := by
  unfold State.weighClaim
  dsimp only
  split
  · exact .of_leaseWork (grantLease_leaseWork ..)
  split
  · exact .refl s
  · exact StandingKept.trans (t := s.enterWaiter w) (fun _ => rfl) (.of_leaseWork (settle_leaseWork s (.refl _)))

theorem leRenew_standing (p : PortId) (w0 : Word) (s : State) : StandingKept s (s.leRenew p w0).1 := by
  unfold State.leRenew
  dsimp only
  split
  · exact .refl s
  split
  · split
    · exact .of_leaseWork (settle_leaseWork s ((putLease_leaseWork _ _ s).trans (revoke_leaseWork _ _ _)))
    · exact .of_leaseWork (putLease_leaseWork _ _ s)
  split
  · exact .refl s
  · exact (StandingKept.of_leaseWork (putLease_leaseWork _ _ s)).trans (.updPort p _ _ fun _ => rfl)

/-- No lease command changes what stands at a port. -/
theorem leCommand_standing (p : PortId) (s : State) : StandingKept s (s.leCommand p).1 := by
  unfold State.leCommand
  dsimp only
  split
  · exact .refl s
  split
  · unfold State.leClaim
    split
    · split
      · exact .refl s
      · exact weighClaim_standing _ s
    · exact .refl s
  · exact leRenew_standing p _ s
  · unfold State.leRelease
    dsimp only
    repeat' split
    all_goals first
      | exact .refl s
      | exact .of_leaseWork (settle_leaseWork s (freeLease_leaseWork _ s))
  · unfold State.leUpgrade
    dsimp only
    repeat' split
    all_goals first
      | exact .refl s
      | exact .of_leaseWork (putLease_leaseWork _ _ s)
  · unfold State.leDowngrade
    dsimp only
    repeat' split
    all_goals first
      | exact .refl s
      | exact .of_leaseWork (settle_leaseWork s (putLease_leaseWork _ _ s))
  · unfold State.leWithdraw
    dsimp only
    split
    · exact .of_leaseWork (settle_leaseWork s (removeWaiters_leaseWork _ s))
    · exact .refl s
  all_goals exact .refl s

theorem answer_standing (p : PortId) (x : Answer) (s : State) : StandingKept s (s.answer p x) := .updPort p _ s fun _ => rfl

theorem placeReply_standing (p : PortId) (r : Reply) (s : State) : StandingKept s (s.placeReply p r) :=
  .updPort p _ s fun _ => rfl

theorem submit_standing (p : PortId) (s : State) : StandingKept s (s.submit p) := by
  have h : StandingKept s (((s.leCommand p).1.placeReply p (s.leCommand p).2).answer p .writeDone) :=
    ((leCommand_standing p s).trans (placeReply_standing p _ _)).trans (answer_standing p _ _)
  unfold State.submit
  dsimp only
  split
  · exact h.trans (countFault_standing p _)
  · exact h

theorem windowAccess_standing (p : PortId) (a : Presentation) (s : State) : StandingKept s (s.windowAccess p a) := by
  unfold State.windowAccess
  dsimp only
  split
  · refine StandingKept.trans ?_ (answer_standing p _ _)
    unfold State.windowRead
    split
    all_goals first
      | exact .refl s
      | exact .updPort p _ s fun _ => rfl
      | exact .updPort p _ s fun q => by unfold Port.takeNotice; split <;> rfl
  · split
    · refine StandingKept.trans ?_ (answer_standing p _ _)
      exact .updPort p _ s fun _ => rfl
    · exact submit_standing p s
    all_goals exact answer_standing p _ s

theorem accept_standing (p : PortId) (a : Presentation) (region : Option RegionId)
    (lease : Option (LeaseId × Generation)) (cycle : CycleFields) (s : State) :
    StandingKept s (s.accept p a region lease cycle) := by
  have put : ∀ (id : LeaseId) (l : Lease) (u : State), StandingKept s u → StandingKept s (u.putLease id l) :=
    fun id l u h => h.trans (.of_leaseWork (putLease_leaseWork id l u))
  unfold State.accept
  dsimp only
  rcases region with _ | r <;> rcases lease with _ | ⟨id, g⟩
  · exact .updPort p _ _ fun _ => rfl
  · exact (put id _ s (.refl s)).trans (.updPort p _ _ fun _ => rfl)
  · exact .updPort p _ _ fun _ => rfl
  · exact (put id _ (s.updRegion r _) fun _ => rfl).trans (.updPort p _ _ fun _ => rfl)

/-- Carrying out a judgement changes nothing of what stands at the ports. -/
theorem carryOut_standing (p : PortId) (a : Presentation) (s : State) : StandingKept s (s.carryOut p a) := by
  unfold State.carryOut
  split
  · unfold State.refuse
    dsimp only
    split
    · refine StandingKept.trans ?_ (countFault_standing p _)
      exact .updPort p _ s fun _ => rfl
    · exact .updPort p _ s fun _ => rfl
  · exact windowAccess_standing p a s
  · exact accept_standing p a _ _ _ s

/-- R26: where something stands that the port can take, it is taken, and then the access is presented. -/
theorem present_of_standing {s : State} {p : PortId} {b : Presentation} (a : Presentation)
    (h : (s.port p).standing = some b) (hc : s.canTake p = true) :
    s.present p a = ((s.updPort p fun q => { q with standing := none }).carryOut p b).present p a := by
  have hn : (((s.updPort p fun q => { q with standing := none }).carryOut p b).port p).standing = none := by
    rw [carryOut_standing p b _ p, port_updPort_self]
  unfold State.present
  rw [takeStanding_of_some h hc, takeStanding_of_none hn]

/-- R145: a lease command row where nothing stands at the port, or nothing that it can take: the code in REQUEST0 decides. -/
theorem submitRow_of_none_taken {s : State} {p : PortId} (code : Nat) (be : BitVec 4) (data : Word)
    (h : (s.port p).standing = none ∨ s.canTake p = false) :
    s.submitRow code p be data =
      if reqCode (s.port p).request[0] = code then s.present p (s.windowPresentation .write 0x10 be data) else s := by
  unfold State.submitRow
  rcases h with h | h
  · rw [takeStanding_of_none h]
  · rw [takeStanding_of_busy h]

/-- R145: a lease command row after the presentation that stands: the code in REQUEST0 once that is taken decides. -/
theorem submitRow_of_standing {s : State} {p : PortId} {b : Presentation} (code : Nat) (be : BitVec 4) (data : Word)
    (h : (s.port p).standing = some b) (hc : s.canTake p = true) :
    s.submitRow code p be data =
      if reqCode ((((s.updPort p fun q => { q with standing := none }).carryOut p b).port p)).request[0] = code then
        s.present p (s.windowPresentation .write 0x10 be data)
      else s := by
  unfold State.submitRow
  rw [takeStanding_of_some h hc]

/-! ## Addresses of the window -/

/-- The bytes below 4,096 above an aligned window base lie in the window, at their own offset. -/
theorem window_offset {m : MapUnit} (h : m.windowBase &&& 0xFFF#32 = 0#32) {k : Nat} (hk : k < 4096) :
    m.window.contains (m.windowBase + BitVec.ofNat 32 k) = true ∧
    (m.windowBase + BitVec.ofNat 32 k - m.windowBase).toNat = k := by
  have h0 : m.windowBase.toNat % 4096 = 0 := by
    have := congrArg BitVec.toNat h
    rw [BitVec.toNat_and] at this
    simpa [Nat.and_two_pow_sub_one_eq_mod _ 12] using this
  have hlt := m.windowBase.isLt
  have hsum : (m.windowBase + BitVec.ofNat 32 k).toNat = m.windowBase.toNat + k := by
    rw [BitVec.toNat_add, BitVec.toNat_ofNat]
    omega
  constructor
  · simp only [AddrRange.contains, AddrRange.lo, AddrRange.hi, MapUnit.window, hsum, Bool.and_eq_true, decide_eq_true_eq]
    have : (2 : Nat) ^ (12#6).toNat = 4096 := rfl
    omega
  · rw [BitVec.toNat_sub, hsum]
    omega

/-- R4, R186: an access at a window offset decodes to the window, in either map state. -/
theorem decode_window {m : MapUnit} (h : m.windowBase &&& 0xFFF#32 = 0#32) {k : Nat} (hk : k < 4096) (p : PortId)
    (dir : Direction) : m.decode p dir (m.windowBase + BitVec.ofNat 32 k) = .window := by
  unfold MapUnit.decode
  simp [(window_offset h hk).1]

/-- The seven enables of a naturally aligned access inside one word: the lowest lane, and what follows from it. -/
theorem alignedEnables_spec {be : BitVec 4} (h : alignedEnables be = true) :
    legalWidth be = true ∧ lowestLane be < 4 ∧ lowestLane be % enabledCount be = 0 ∧ 4 % enabledCount be = 0 ∧
    0 < enabledCount be := by
  revert h
  revert be
  decide

/-- R27: enables of a legal width name adjacent bytes from the lowest lane, and no others do. -/
theorem legalWidth_iff {be : BitVec 4} {w : Nat} {k : Fin 4} (hw : w ∈ [1, 2, 4]) :
    (k.val + w ≤ 4 ∧ ∀ i : Fin 4, be.getLsbD i.val = decide (k.val ≤ i.val ∧ i.val < k.val + w)) ↔
      legalWidth be = true ∧ enabledCount be = w ∧ lowestLane be = k.val := by
  have all : ∀ (be : BitVec 4) (k : Fin 4), ∀ w ∈ [1, 2, 4],
      ((k.val + w ≤ 4 ∧ ∀ i : Fin 4, be.getLsbD i.val = decide (k.val ≤ i.val ∧ i.val < k.val + w)) ↔
        legalWidth be = true ∧ enabledCount be = w ∧ lowestLane be = k.val) := by decide
  exact all be k w hw

/-- R27: natural alignment, in the rule's words. -/
theorem naturallyAligned_iff {a : Presentation} :
    naturallyAligned a = true ↔ ∃ w ∈ [1, 2, 4], ∃ k : Fin 4,
      (k.val + w ≤ 4 ∧ ∀ i : Fin 4, a.be.getLsbD i.val = decide (k.val ≤ i.val ∧ i.val < k.val + w)) ∧
      a.addr.toNat % w = 0 ∧ a.addr.toNat % 4 = k.val := by
  have legal : ∀ be : BitVec 4, legalWidth be = true → enabledCount be ∈ [1, 2, 4] ∧ lowestLane be < 4 := by decide
  simp only [naturallyAligned, Bool.and_eq_true, beq_iff_eq]
  constructor
  · rintro ⟨⟨hl, hm⟩, hk⟩
    obtain ⟨hw, hlt⟩ := legal a.be hl
    exact ⟨enabledCount a.be, hw, ⟨lowestLane a.be, hlt⟩, (legalWidth_iff hw).mpr ⟨hl, rfl, rfl⟩, hm, hk⟩
  · rintro ⟨w, hw, k, hn, hm, hk⟩
    obtain ⟨hl, rfl, hlow⟩ := (legalWidth_iff hw).mp hn
    exact ⟨⟨hl, hm⟩, hk.trans hlow.symm⟩

/-- R27: a window access of aligned enables at a word offset is naturally aligned. -/
theorem naturallyAligned_window {s : State} (h : WindowAligned s) {be : BitVec 4} (hb : alignedEnables be = true)
    {off : Nat} (ho : off < 4096) (h4 : off % 4 = 0) (dir : Direction) (data : Word) :
    naturallyAligned (s.windowPresentation dir off be data) = true := by
  obtain ⟨hl, hlane, hmod, hdiv, hpos⟩ := alignedEnables_spec hb
  have h0 : s.mu.windowBase.toNat % 4096 = 0 := by
    have := congrArg BitVec.toNat h
    rw [BitVec.toNat_and] at this
    simpa [Nat.and_two_pow_sub_one_eq_mod _ 12] using this
  have hlt := s.mu.windowBase.isLt
  have hsum : (s.mu.windowBase + BitVec.ofNat 32 (off + lowestLane be)).toNat =
      s.mu.windowBase.toNat + (off + lowestLane be) := by
    rw [BitVec.toNat_add, BitVec.toNat_ofNat]
    omega
  unfold naturallyAligned State.windowPresentation
  simp only [hl, hsum, Bool.true_and, Bool.and_eq_true, beq_iff_eq]
  constructor
  · apply Nat.mod_eq_zero_of_dvd
    have hd : enabledCount be ∣ 4 := Nat.dvd_of_mod_eq_zero hdiv
    have h1 : enabledCount be ∣ s.mu.windowBase.toNat + off := hd.trans (by omega)
    rw [← Nat.add_assoc]
    exact Nat.dvd_add h1 (Nat.dvd_of_mod_eq_zero hmod)
  · omega

/-- R28, R29: an ONLINE requester's aligned access of the window passes every check before the window's own. -/
theorem judge_window {s : State} {p : PortId} (hq : (s.port p).requester.state = .online)
    (hu : s.mgp.unit ≠ .softResetting) (h : WindowAligned s) {be : BitVec 4} (hb : alignedEnables be = true) {off : Nat}
    (ho : off < 4096) (h4 : off % 4 = 0) (dir : Direction) (data : Word) :
    s.judge p (s.windowPresentation dir off be data) = .window := by
  have hlane := (alignedEnables_spec hb).2.1
  unfold State.judge
  simp only [hq, hu, naturallyAligned_window h hb ho h4 dir data]
  have : s.mu.decode p dir (s.mu.windowBase + BitVec.ofNat 32 (off + lowestLane be)) = .window :=
    decode_window h (by omega) p dir
  simp [State.windowPresentation, this]

/-- R186: the word of the window an aligned access at a word offset reaches. -/
theorem windowSlot_offset {s : State} (h : WindowAligned s) {be : BitVec 4} (hb : alignedEnables be = true) {off : Nat}
    (ho : off < 4096) (h4 : off % 4 = 0) :
    (s.mu.windowBase + BitVec.ofNat 32 (off + lowestLane be) - s.mu.windowBase).toNat / 4 = off / 4 := by
  have hlane := (alignedEnables_spec hb).2.1
  rw [(window_offset h (k := off + lowestLane be) (by omega)).2]
  omega

/-- R143: what an aligned access of the window by a ready, ONLINE requester does. -/
theorem present_window {s : State} {p : PortId} (hi : (s.port p).access.state = .idle)
    (hr : (s.port p).requester.inReset = false) (hs : (s.port p).standing = none)
    (hq : (s.port p).requester.state = .online) (hu : s.mgp.unit ≠ .softResetting) (h : WindowAligned s)
    {be : BitVec 4} (hb : alignedEnables be = true) {off : Nat} (ho : off < 4096) (h4 : off % 4 = 0) (dir : Direction)
    (data : Word) :
    s.present p (s.windowPresentation dir off be data) =
      s.windowAccess p (s.windowPresentation dir off be data) := by
  rw [present_of_idle _ hi hr hs]
  unfold State.carryOut
  rw [judge_window hq hu h hb ho h4]

end Sys2Proof.Machine
end

