-- ==== Sys2Proof/Laws/Ends.lean ====
section
/-! SUPPORT. What the end of an access, the completions that follow from it and the bus leave as it was. -/

namespace Sys2Proof.Machine

/-- What no access end, completion or bus event changes. -/
structure Outside (s t : State) : Prop where
  map : t.mu.map = s.mu.map
  windowBase : t.mu.windowBase = s.mu.windowBase
  groups : t.mu.groups = s.mu.groups
  divider : t.divider = s.divider
  busTimeout : t.bsq.busTimeout = s.bsq.busTimeout
  threshold : t.ptc.threshold = s.ptc.threshold
  limit : t.ptc.limit = s.ptc.limit
  resumeScans : t.le.resumeScans = s.le.resumeScans
  mgp : t.mgp =
    { s.mgp with flags := t.mgp.flags, hostStatus := t.mgp.hostStatus, unit := t.mgp.unit }
  freeDraws : t.freeDraws = s.freeDraws
  inputs : t.inputs = s.inputs
  pending : t.pending = s.pending

namespace Outside

theorem refl (s : State) : Outside s s := by
  constructor <;> rfl

theorem trans {s t u : State} (h : Outside s t) (k : Outside t u) : Outside s u where
  map := k.map.trans h.map
  windowBase := k.windowBase.trans h.windowBase
  groups := k.groups.trans h.groups
  divider := k.divider.trans h.divider
  busTimeout := k.busTimeout.trans h.busTimeout
  threshold := k.threshold.trans h.threshold
  limit := k.limit.trans h.limit
  resumeScans := k.resumeScans.trans h.resumeScans
  mgp := by rw [k.mgp, h.mgp]
  freeDraws := k.freeDraws.trans h.freeDraws
  inputs := k.inputs.trans h.inputs
  pending := k.pending.trans h.pending

theorem foldl {α : Type} (f : State → α → State) (h : ∀ s a, Outside s (f s a)) (l : List α) (s : State) :
    Outside s (l.foldl f s) := by
  induction l generalizing s with
  | nil => exact refl s
  | cons a l ih => exact (h s a).trans (ih (f s a))

end Outside

/-- The operations of the Lease Engine are inside. -/
theorem LeaseWork.outside {s t : State} (h : LeaseWork s t) : Outside s t where
  map := by rw [h.mu]
  windowBase := by rw [h.mu]
  groups := by rw [h.mu]
  divider := h.divider
  busTimeout := by rw [h.bsq]
  threshold := h.threshold
  limit := h.limit
  resumeScans := h.resumeScans
  mgp := by rw [h.mgp]
  freeDraws := h.freeDraws
  inputs := h.inputs
  pending := h.pending

theorem updPort_outside (p : PortId) (f : Port → Port) (s : State) : Outside s (s.updPort p f) := by
  constructor <;> rfl

theorem updRegion_outside (r : RegionId) (f : Region → Region) (s : State) : Outside s (s.updRegion r f) := by
  constructor <;> rfl

theorem updTarget_outside (x : TargetId) (f : Target → Target) (s : State) : Outside s (s.updTarget x f) := by
  constructor <;> rfl

theorem setHold_outside (h : Option BusHold) (s : State) : Outside s (s.setHold h) := by
  constructor <;> rfl

theorem raise_outside (e : Event) (s : State) : Outside s (s.raise e) := by
  constructor <;> rfl

theorem finish_outside (code : BitVec 4) (result : HostResult) (s : State) : Outside s (s.finish code result) := by
  constructor <;> rfl

theorem retireTest_outside (r : RegionId) (s : State) : Outside s (s.retireTest r) := by
  unfold State.retireTest
  split
  · exact (updRegion_outside r _ s).trans (finish_outside _ _ _)
  · exact .refl s

theorem completeSoftReset_outside (s : State) : Outside s s.completeSoftReset := by
  constructor <;> rfl

theorem softResetReport_outside (s : State) : Outside s s.softResetReport := by
  unfold State.softResetReport
  split
  · exact completeSoftReset_outside s
  · exact .refl s

theorem settle_outside (before : State) {s t : State} (h : Outside s t) : Outside s (before.settle t) := by
  unfold State.settle
  split
  · exact h.trans (grantScan_leaseWork t).outside
  · exact h

theorem drainLease_outside (id : LeaseId) (s : State) : Outside s (s.drainLease id) := by
  unfold State.drainLease
  refine settle_outside s (.trans ?_ (retireTest_outside _ _))
  split
  · exact (freeLease_leaseWork id s).outside
  · exact (putLease_leaseWork id _ s).outside

theorem endUnder_outside (id : LeaseId) (gen : Generation) (s : State) : Outside s (s.endUnder id gen) := by
  unfold State.endUnder
  dsimp only
  split
  · exact .refl s
  split
  · exact (putLease_leaseWork id _ s).outside
  · exact drainLease_outside id s
  · exact .refl s
  · exact .refl s

theorem endRegion_outside (r : Option RegionId) (s : State) : Outside s (s.endRegion r) := by
  cases r with
  | none => exact .refl s
  | some r => exact (updRegion_outside r _ s).trans (retireTest_outside r _)

theorem endLease_outside (l : Option (LeaseId × Generation)) (s : State) : Outside s (s.endLease l) := by
  cases l with
  | none => exact .refl s
  | some x => exact endUnder_outside x.1 x.2 s

theorem endBus_outside (p : PortId) (s : State) : Outside s (s.endBus p) := by
  unfold State.endBus
  split
  · exact (setHold_outside none s).trans (softResetReport_outside _)
  · exact .refl s

/-- R135: the end of an access. -/
theorem endAccess_outside (p : PortId) (e : AccessEnd) (s : State) : Outside s (s.endAccess p e) :=
  (updPort_outside p _ s).trans
    ((endRegion_outside _ _).trans ((endLease_outside _ _).trans (endBus_outside p _)))

/-! ## The bus -/

theorem countTimeout_outside (x : TargetId) (a : Word) (s : State) : Outside s (s.countTimeout x a) := by
  unfold State.countTimeout
  have h : Outside s ((s.updTarget x fun r => r.timedOut a).raise .targetTimeout) :=
    (updTarget_outside x _ s).trans (raise_outside _ _)
  dsimp only
  split
  · exact h.trans ((updTarget_outside x _ _).trans (raise_outside _ _))
  · exact h

theorem grantDecision_outside (s : State) : Outside s s.grantDecision := by
  unfold State.grantDecision
  split
  · exact .refl s
  split
  · exact .refl s
  · next l p _ =>
    have h : Outside s { s with bsq := { s.bsq with pointers := s.bsq.pointers.set l p } } := by
      constructor <;> rfl
    dsimp only
    split
    · exact h.trans (endAccess_outside p _ _)
    · exact h.trans ((updPort_outside p _ _).trans (setHold_outside _ _))

theorem cycleComplete_outside (data : Word) (s : State) : Outside s (s.cycleComplete data) := by
  unfold State.cycleComplete
  split
  · exact .refl s
  · next h _ =>
    have k : ∀ (x : TargetId) (f : Target → Target) (g : AccessRecord → AccessRecord),
        Outside s ((s.updTarget x f).updAccess h.port g) := fun x f g =>
      (updTarget_outside x f s).trans (updPort_outside _ _ _)
    dsimp only
    split
    · exact (k _ _ _).trans (endAccess_outside _ _ _)
    split
    · exact (k _ _ _).trans (endAccess_outside _ _ _)
    · exact (k _ _ _).trans (setHold_outside _ _)

theorem cycleTimeout_outside (s : State) : Outside s s.cycleTimeout := by
  unfold State.cycleTimeout
  split
  · exact .refl s
  · dsimp only
    split
    · exact .refl s
    · exact (countTimeout_outside _ _ s).trans (endAccess_outside _ _ _)

end Sys2Proof.Machine
end

