-- ==== Sys2Proof/Laws/Words.lean ====
section
/-! SUPPORT. Reading the fields of a word put together from fields. -/

namespace Sys2Proof.Machine

theorem field_or (a b : Word) (lo len : Nat) : field (a ||| b) lo len = field a lo len ||| field b lo len := by
  simp only [field, BitVec.extractLsb'_or, BitVec.toNat_or]

@[simp] theorem field_zero (lo len : Nat) : field 0#32 lo len = 0 := by
  simp [field]

theorem getLsbD_place (n lo len i : Nat) :
    (place n lo len).getLsbD i = (decide (i < 32) && decide (lo ≤ i) && (decide (i - lo < len) && n.testBit (i - lo))) := by
  simp only [place, BitVec.getLsbD_shiftLeft, BitVec.getLsbD_setWidth, BitVec.getLsbD_ofNat]
  by_cases h : i < 32 <;> by_cases k : lo ≤ i <;> simp [h, k]
  have : ¬i < lo ∧ i - lo < 32 := by omega
  simp [this]

/-- A field read where it was placed. -/
theorem field_place_self {n lo len : Nat} (h : lo + len ≤ 32) : field (place n lo len) lo len = n % 2 ^ len := by
  apply Nat.eq_of_testBit_eq
  intro i
  rw [field, Nat.testBit_mod_two_pow, ← BitVec.getLsbD, BitVec.getLsbD_extractLsb', getLsbD_place]
  by_cases hi : i < len
  · simp only [hi, decide_true, Bool.true_and]
    have : lo + i < 32 := by omega
    simp [this, hi]
  · simp [hi]

/-- A field read where another was placed. -/
theorem field_place_disjoint {n lo len lo' len' : Nat} (h : lo' + len' ≤ lo ∨ lo + len ≤ lo') :
    field (place n lo' len') lo len = 0 := by
  apply Nat.eq_of_testBit_eq
  intro i
  rw [field, ← BitVec.getLsbD, BitVec.getLsbD_extractLsb', getLsbD_place]
  by_cases hi : i < len
  · have : ¬(lo' ≤ lo + i ∧ lo + i - lo' < len') := by omega
    simp only [hi, decide_true, Bool.true_and]
    by_cases h1 : lo' ≤ lo + i <;> by_cases h2 : lo + i - lo' < len' <;> simp_all
  · simp [hi]

/-- A field of one bit that holds a flag. -/
theorem field_placeBit_self {b : Bool} {lo : Nat} (h : lo < 32) : field (placeBit b lo) lo 1 = b.toNat := by
  rw [placeBit, field_place_self (by omega)]
  cases b <;> rfl

theorem field_placeBit_disjoint {b : Bool} {lo len lo' : Nat} (h : lo' + 1 ≤ lo ∨ lo + len ≤ lo') :
    field (placeBit b lo') lo len = 0 :=
  field_place_disjoint h

end Sys2Proof.Machine
end

