-- ==== Sys2Proof/Tests/Slice0.lean ====
section
/-! SUPPORT. Tests on small states: the ill-formed terms each check refuses, one step of a few commands, and for each
obligation with hypotheses a state and operands that meet them. -/

namespace Sys2Proof.Tests

open Sys2Proof.Machine Sys2Proof.Safety Sys2Proof.Claims

set_option maxRecDepth 20000

/-! ## Ill-formed terms -/

theorem test_requestWrite_illFormed : Instr.wellFormed (.requestWrite 0 1 0b0101#4 0#32) = false := by decide

theorem test_windowReads_illFormed :
    Instr.wellFormed (.resultRead 0 0b0110#4) = false ∧ Instr.wellFormed (.portStatusRead 0 0b0000#4) = false ∧
    Instr.wellFormed (.noticeRead 0 0b0111#4) = false := by decide

theorem test_leaseCommands_illFormed :
    Instr.wellFormed (.claim 0 0b0110#4 0#32) = false ∧ Instr.wellFormed (.renew 1 0b1110#4 0#32) = false ∧
    Instr.wellFormed (.release 2 0b0000#4 0#32) = false ∧ Instr.wellFormed (.upgrade 3 0b1001#4 0#32) = false ∧
    Instr.wellFormed (.downgrade 0 0b1010#4 0#32) = false ∧ Instr.wellFormed (.withdraw 1 0b1011#4 0#32) = false ∧
    Instr.wellFormed (.query 2 0b1101#4 0#32) = false ∧ Instr.wellFormed (.lookup 3 0b0101#4 0#32) = false := by decide

theorem test_registerWrite_illFormed_register :
    ∀ n ∈ [1#7, 3#7, 7#7, 8#7, 18#7, 27#7], Instr.wellFormed (.registerWrite n 0#32) = false := by decide

theorem test_registerWrite_illFormed_command :
    Instr.wellFormed (.registerWrite 9#7 1#32) = false ∧ Instr.wellFormed (.registerWrite 9#7 13#32) = false := by decide

theorem test_wellFormed_terms :
    Instr.wellFormed (.requestWrite 3 2 0b1100#4 5#32) = true ∧ Instr.wellFormed (.registerWrite 4#7 7#32) = true ∧
    Instr.wellFormed (.registerWrite 9#7 14#32) = true := by decide

/-! ## Small states -/

/-- An ACTIVE region of 4 KiB at the start of group A. -/
def region (policy : Policy) : Region :=
  { state := .active, offset := 0#32, exp := 12#6
    cycle := { target := 1, width := .w16, waits := 0#4, ready := .external }
    rights := #v[.readWrite, .readWrite, .read, .none], policy := policy
    term := 8, share := 4, earlyLimit := 2, yield := true, inFlight := 0 }

/-- A LIVE part with one VALID group, region slot 0 as given, slot 1 SUSPENDED above it, and P0 to P2 ONLINE. -/
def live (policy : Policy) : State :=
  let s := State.reset
  (({ s with mu := { s.mu with
      map := .live
      groups := s.mu.groups.set 0 { valid := true, exp := 16#6, base := 0#32 }
      regions := (s.mu.regions.set 0 (region policy)).set 1
        { region policy with state := .suspended, offset := 0x1000#32 } } }.updRequester 1
    fun q => { q with state := .online }).updRequester 2 fun q => { q with state := .online })

/-- A HELD lease of `p` on 256 bytes of region slot 0. -/
def lease (p : PortId) (start : Word) (mode : Mode) : Lease :=
  { generation := 3#4, state := .held, holder := p, region := 0, range := { start := start, exp := 8#6 }, mode := mode
    priority := 1, term := 8, remaining := 2, faults := 0, inFlight := false, reason := none, drainEnd := none }

/-- A waiter of `p` for 256 bytes of region slot 0. -/
def waiter (p : PortId) (tag : Tag) (start : Word) (budget : Nat) : Waiter :=
  { requester := p, tag := tag, region := 0, range := { start := start, exp := 8#6 }, mode := .exclusive, priority := 2
    term := 4, budget := budget, arrival := 0#16 }

/-- A port access record naming region slot 0. -/
def access (state : AccessState) (dir : Direction) (l : Option (LeaseId × Generation)) : AccessRecord :=
  { state := state, addr := 0x100#32, dir := dir, width := 4, data := 0x11223344#32, region := some 0, lease := l
    cycle := (region .openAccess).cycle, cyclesDone := 0, orphaned := false }

/-- REQUEST words in a port. -/
def asked (p : PortId) (w0 w1 w2 : Word) (s : State) : State :=
  s.updPort p fun q => { q with request := #v[w0, w1, w2, 0#32] }

def setUnit (u : HostUnit) (s : State) : State := { s with mgp := { s.mgp with unit := u } }

def setArg (n : BitVec 12) (s : State) : State := { s with mgp := { s.mgp with hostArg := n } }

/-- The part with P0's access on the bus. -/
def onBus (dir : Direction) : State :=
  ((live .openAccess).updAccess 0 fun _ => access .onBus dir none).updRegion 0 (fun d => { d with inFlight := 1 })
    |>.setHold (some { port := 0, periods := 0, timeout := 1024, readData := 0#32 })

/-- P2 waits while P0's access holds the bus. -/
def bothAccess : State :=
  ((onBus .read).updAccess 2 fun _ => access .waitingBus .read none).updRegion 0 fun d => { d with inFlight := 2 }

/-- The state a command answers. -/
def after (c : Instr) (s : State) : State :=
  match exec c s with
  | .next t => t
  | .fault _ => s
  | .refused _ => s

/-- A CLAIM of P0 for 256 bytes at 0x100, EXCLUSIVE, tag 1, priority 2, term 5, with a wait budget. -/
def claiming (budget : Nat) (s : State) : State :=
  asked 0 0x00002251#32 0x00000100#32 (5#32 ||| BitVec.ofNat 32 (budget * 65536)) s

/-- A command of P0 that names lease 0 with generation 3. -/
def naming (code : Word) (s : State) : State := asked 0 (0x03000000#32 ||| code) 0#32 0#32 s

/-- Lease 0 is P0's. -/
def holding (mode : Mode) : State := (live .allLeased).putLease 0 (lease 0 0x100#32 mode)

/-! ## One step -/

theorem test_reset_steps : step State.reset = .next State.reset := by rfl

theorem test_claim_is_granted :
    let t := after (.claim 0 15#4 0#32) (claiming 0 (live .allLeased))
    (t.lease 0).state = .held ∧ (t.lease 0).generation = 1#4 ∧ (t.lease 0).remaining = 5 ∧ t.le.freeSlots = 63 ∧
    (t.port 0).mailbox.result = 0x00010001#32 ∧ (t.port 0).answer = some .writeDone := by decide

theorem test_claim_waits :
    let t := after (.claim 0 15#4 0#32) (claiming 3 ((live .allLeased).putLease 7 (lease 1 0x100#32 .shared)))
    t.le.waiters.length = 1 ∧ (t.port 0).mailbox.result = 0x00100002#32 ∧ t.le.nextArrival = 1#16 := by decide

theorem test_release_frees :
    let t := after (.release 0 15#4 0#32) (naming 3#32 (holding .shared))
    (t.lease 0).state = .free ∧ t.le.freeSlots = 64 ∧ (t.port 0).mailbox.result = 0x00030000#32 := by decide

theorem test_release_grants_the_waiter :
    let s := (naming 3#32 (holding .shared)).setWaiters [waiter 1 2 0x100#32 5]
    let t := after (.release 0 15#4 0#32) s
    (t.lease 0).holder = 1 ∧ (t.lease 0).generation = 4#4 ∧ t.le.waiters = [] ∧
    (t.port 1).board[2] = some (.granted 0 4#4) ∧ (t.port 1).ntf = true := by decide

theorem test_renew_loads_the_term :
    (((after (.renew 0 15#4 0#32) (naming 2#32 (holding .shared))).lease 0).remaining = 8) := by decide

theorem test_tick_expires :
    let t := after .tick ((live .allLeased).putLease 0 { lease 0 0x100#32 .shared with remaining := 1 })
    (t.lease 0).state = .revoked ∧ (t.lease 0).reason = some .expired ∧ (t.port 0).tombstones = 1 ∧
    t.flagged .leaseExpired = true ∧ t.le.freeSlots = 63 := by decide

theorem test_access_is_accepted :
    let t := after (.accessArrival 0 { addr := 0x102#32, dir := .write, be := 0b1100#4, data := 0xAABBCCDD#32 })
      (live .openAccess)
    (t.port 0).access.state = .waitingBus ∧ (t.port 0).access.width = 2 ∧ (t.port 0).access.data = 0xAABB0000#32 ∧
    (t.region 0).inFlight = 1 := by decide

theorem test_access_is_refused :
    let t := after (.accessArrival 2 { addr := 0x100#32, dir := .write, be := 15#4, data := 0#32 }) (live .openAccess)
    (t.port 2).answer = some .busError ∧ (t.port 2).lastFault.reason = some .rights ∧
    (t.port 2).requester.faults = 1 := by decide

theorem test_two_cycles_make_a_word :
    let t := after (.deviceCycleComplete 0xBBAA#32) (after (.deviceCycleComplete 0x2211#32) (onBus .read))
    (t.port 0).answer = some (.readData 0xBBAA2211#32) ∧ t.bsq.hold = none ∧ (t.region 0).inFlight = 0 := by decide

theorem test_write_cycles_present_their_own_bytes :
    let later := (onBus .write).updAccess 0 fun a => { a with cyclesDone := 1 }
    (onBus .write).selected = some 1 ∧ (onBus .write).deviceBus = some (0x100#32, .write, 0x3344#32) ∧
    later.deviceBus = some (0x102#32, .write, 0x11220000#32) ∧ (live .openAccess).selected = none := by decide

theorem test_timeout_is_counted :
    let t := after .busTimeoutExpiry (onBus .write)
    (t.target 1).consecutive = 1 ∧ (t.target 1).total = 1 ∧ (t.target 1).lastTimeout = 0x100#32 ∧
    (t.port 0).answer = some .busError ∧ t.flagged .targetTimeout = true := by decide

theorem test_goLive :
    let t := after .goLive State.reset
    t.mu.map = .live ∧ t.divider = 25600 ∧ t.flagged .cmdDone = true := by decide

theorem test_crc8_of_the_check_string :
    crc8 .p31 (natToBits 72 0x313233343536373839) = 0xF7#8 := by decide

theorem test_write_frame :
    ((after (.ncsRise (natToBits 40 0x8400000031)) State.reset).mgp.tickDiv = 0x31#16) := by decide

theorem test_pin_event_on_an_empty_queue :
    step { live .openAccess with inputs := [.refclk], divider := 7 } =
      .next { live .openAccess with inputs := [], divider := 6 } := by rfl

theorem test_deassertion_takes_what_stands :
    let s := (live .openAccess).updPort 0 fun q =>
      { q with requester := { q.requester with inReset := true }
               standing := some { addr := 0x100#32, dir := .read, be := 15#4, data := 0#32 } }
    let t := after (.rqrstDeassertion 0) s
    (t.port 0).standing = none ∧ (t.port 0).access.state = .waitingBus := by decide

theorem test_tick_loads_the_divider : (after .tick { live .openAccess with divider := 7 }).divider = 25600 := by decide

theorem test_barring_grants_the_resumed_waiter :
    let s := (((live .openAccess).setWaiters [waiter 1 2 0x100#32 5]).askScan).updRequester 0 fun q => { q with faults := 7 }
    let t := after (.accessArrival 0 { addr := 0x2000#32, dir := .read, be := 15#4, data := 0#32 }) s
    (t.port 0).requester.state = .quarantined ∧ (t.lease 0).holder = 1 ∧ t.le.waiters = [] := by decide

theorem test_sdo_keeps_its_bit_until_the_fall :
    let s := { State.reset with mgp := { State.reset.mgp with
      receiver := .receiving (natToBits 9 0) 0x80000000#32 State.reset.mgp.crc 8 } }
    s.sdo = some true ∧ s.sckFall.sdo = some false := by decide

theorem test_undefined_rights_are_no_descriptor :
    stagedRegion 12#32 0x03000000#32 0x00110001#32 = none ∧
    (stagedRegion 12#32 0x02000000#32 0x00110001#32).isSome = true := by decide

/-! ## The hypotheses of the obligations are met -/

theorem test_hyps_StepRunsTheFrontCommand : ({ State.reset with pending := [.tick, .goLive] }).pending = .tick :: [.goLive] := by
  rfl

theorem test_hyps_EmptyQueueStep :
    let free := live .openAccess
    let stood : Presentation := { addr := 0x100#32, dir := .read, be := 15#4, data := 0#32 }
    let standing := free.updPort 0 fun q => { q with standing := some stood }
    let waits := free.updAccess 0 fun _ => access .waitingBus .read none
    let ticking := { free with inputs := [.refclk] }
    free.pending = [] ∧ (free.askScan).le.resumeScans ≠ 0 ∧ free.le.resumeScans = 0 ∧
    ((standing.port 0).access.state = .idle ∧ (standing.port 0).requester.inReset = false ∧
      (standing.port 0).standing = some stood) ∧
    ((∀ p : PortId, (waits.port p).standing = none) ∧ waits.bsq.hold = none ∧ (waits.port 0).access.state = .waitingBus) ∧
    ((∀ p : PortId, (free.port p).standing = none ∧ (free.port p).access.state ≠ .waitingBus) ∧ free.inputs = []) ∧
    ({ State.reset with inputs := [.refclk] }).mu.map = .boot ∧
    (ticking.inputs = .refclk :: [] ∧ ticking.mu.map = .live ∧ 2 ≤ ticking.divider) ∧
    ({ ticking with divider := 1 }).divider ≤ 1 := by decide

/-- P0's cycle on the bus, with these fields, after some periods. -/
def cycling (ready : ReadyMode) (waits : BitVec 4) (periods : Nat) (e : PinEvent) : State :=
  let s := ((onBus .read).updAccess 0 fun a => { a with cycle := { a.cycle with ready := ready, waits := waits } }).setHold
    (some { port := 0, periods := periods, timeout := 16, readData := 0#32 })
  { s with inputs := [e] }

/-- The cycle fields and the periods of the bus holder. -/
def cycleNow (s : State) : Option (ReadyMode × Nat × Nat × Nat) :=
  s.bsq.hold.map fun h =>
    let c := (s.port h.port).access.cycle
    (c.ready, c.waits.toNat, h.periods, h.timeout)

/-- The pin events on an empty queue: the cycles before and at their ends, and the fall of nCS high and low. -/
theorem test_hyps_EmptyQueueStep_pins :
    let seen : PinEvent := .bclk true 5#32
    let unseen : PinEvent := .bclk false 5#32
    let quiet := cycling .internal 2#4 1 seen
    (quiet.pending = [] ∧ (∀ p : PortId, (quiet.port p).standing = none) ∧ quiet.bsq.hold ≠ none ∧
      quiet.inputs = seen :: []) ∧
    (({ live .openAccess with inputs := [seen] }).bsq.hold = none) ∧
    (cycleNow quiet = some (.internal, 2, 1, 16) ∧ 1 + 1 < 2 + 1) ∧
    (cycleNow (cycling .internal 2#4 2 seen) = some (.internal, 2, 2, 16) ∧ 2 + 1 ≤ 2 + 1) ∧
    (cycleNow (cycling .external 2#4 1 seen) = some (.external, 2, 1, 16) ∧ 1 + 1 < 2 + 1) ∧
    (cycleNow (cycling .external 2#4 2 seen) = some (.external, 2, 2, 16)) ∧
    (cycleNow (cycling .external 2#4 14 unseen) = some (.external, 2, 14, 16) ∧ 14 + 1 < 16) ∧
    (cycleNow (cycling .external 2#4 15 unseen) = some (.external, 2, 15, 16) ∧ 16 ≤ 15 + 1) ∧
    ({ State.reset with inputs := [.ncsFall] }).mgp.receiver = .high ∧
    (after .nreset { State.reset with mgp := { State.reset.mgp with receiver := .abandoned } }).mgp.receiver ≠ .high ∧
    ({ State.reset with inputs := [.sckRise true, .sckFall] }).inputs = .sckRise true :: [.sckFall] := by
  refine ⟨?_, ?_, ?_, ?_, ?_, ?_, ?_, ?_, ?_, ?_, ?_⟩ <;> decide

theorem test_hyps_RequesterResetClearsTheRequester :
    let stood : Presentation := { addr := 0x100#32, dir := .read, be := 15#4, data := 0#32 }
    let stands := fun (s : State) => s.updPort 0 fun q => { q with standing := some stood }
    TagsUnique ((holding .shared).setWaiters [waiter 1 2 0x100#32 5]) ∧ ((holding .shared).port 0).standing = none ∧
    ((stands (onBus .read)).port 0).access.state ≠ .idle ∧
    (((stands (live .openAccess)).port 0).standing = some stood ∧
      ((stands (live .openAccess)).port 0).access.state = .idle) := by
  decide

theorem test_hyps_PresentationWaits :
    let stood : Presentation := { addr := 0x100#32, dir := .read, be := 15#4, data := 0#32 }
    let s := (live .openAccess).updPort 0 fun q => { q with standing := some stood }
    ((onBus .read).port 0).access.state ≠ .idle ∧
    (((live .openAccess).updRequester 0 fun q => { q with inReset := true }).port 0).requester.inReset = true ∧
    ((s.port 0).access.state = .idle ∧ (s.port 0).requester.inReset = false ∧ (s.port 0).standing = some stood) := by decide

/-- Where addresses go: the window and its ends, boot decode, no group, no slot, and the lowest slot of the one group. -/
theorem test_hyps_AddressGoes :
    let m := (live .allLeased).mu
    let base := m.windowBase
    (Spans base 12 0xFFFFF000#32 ∧ Spans base 12 0xFFFFFFFF#32 ∧ ¬Spans base 12 0xFFFFEFFF#32) ∧
    (¬Spans State.reset.mu.windowBase 12 0x100#32 ∧ State.reset.mu.map = .boot) ∧
    (m.map = .live ∧ ∀ g : GroupId, ¬InGroup m g 0x10000#32) ∧
    (InGroup m 0 0xFFFF#32 ∧ (∀ h : GroupId, h ≠ 0 → ¬InGroup m h 0xFFFF#32) ∧ ∀ r : RegionId, ¬InSlot m 0 r 0xFFFF#32) ∧
    (InGroup m 0 0xFFF#32 ∧ InSlot m 0 0 0xFFF#32 ∧ ∀ k : RegionId, k < 0 → ¬InSlot m 0 k 0xFFF#32) ∧
    (InSlot m 0 1 0x1000#32 ∧ ∀ k : RegionId, k < 1 → ¬InSlot m 0 k 0x1000#32) := by
  refine ⟨?_, ?_, ?_, ?_, ?_, ?_⟩ <;> decide

/-- The checks of the judgement, one state each. -/
theorem test_hyps_JudgementFollowsTheOrder :
    let s := live .allLeased
    let at' := fun (x : Word) => ({ addr := x, dir := .write, be := 15#4, data := 0#32 } : Presentation)
    (s.port 3).requester.state = .offline ∧
    (let b := s.updRequester 0 fun q => { q with state := .lockedOut };
      (b.port 0).requester.state = .lockedOut ∧ (at' 0xFFFFF030#32).dir ≠ .read) ∧
    ((s.port 0).requester.state = .online ∧ (setUnit .softResetting s).mgp.unit = .softResetting) ∧
    (s.mgp.unit ≠ .softResetting ∧ ¬Aligned (at' 2#32) ∧ ¬Aligned { at' 0x101#32 with be := 0b0110#4 } ∧
      ¬Aligned { at' 0x100#32 with be := 0b0101#4 } ∧ ¬Aligned { at' 0x100#32 with be := 0#4 }) ∧
    (Aligned (at' 0xFFFFF030#32) ∧ s.mu.decode 0 .write 0xFFFFF030#32 = .window) ∧
    (Aligned (at' 0x100#32) ∧ State.reset.mu.decode 0 .write 0x100#32 = .mapBoot) ∧
    s.mu.decode 0 .write 0x2000#32 = .noRegion ∧ s.mu.decode 0 .write 0x1000#32 = .inactive 1 ∧
    s.mu.decode 2 .write 0x100#32 = .region 0 ∧ (s.region 0).rights[(2 : PortId)] = .read ∧
    (s.region 0).rights[(0 : PortId)] = .readWrite ∧ (s.region 0).policy = .allLeased ∧
    (∀ id : LeaseId, ¬((s.lease id).state = .held ∧ (s.lease id).holder = 0)) ∧
    ((s.updTarget 1 fun r => { r with state := .faulted }).target 1).state = .faulted ∧
    State.reset.mu.decode 0 .read 0x100#32 = .bootRead ∧
    ((State.reset.updTarget 0 fun r => { r with state := .faulted }).target 0).state = .faulted := by decide

theorem test_hyps_RefusalIsAnswered :
    let s := live .openAccess
    let a : Presentation := { addr := 0x100#32, dir := .write, be := 15#4, data := 0#32 }
    let many := s.updRequester 2 fun q => { q with faults := 7 }
    (Ready s 3 ∧ s.judge 3 a = .refuse .portOffline) ∧
    (Ready s 2 ∧ s.judge 2 a = .refuse .rights ∧ (s.port 2).requester.faults + 1 < s.ptc.threshold) ∧
    (Ready many 2 ∧ many.judge 2 a = .refuse .rights ∧ many.ptc.threshold ≤ (many.port 2).requester.faults + 1 ∧
      TagsUnique many) := by decide

theorem test_hyps_AccessIsAccepted :
    let s := live .openAccess
    let l := holding .exclusive
    let a : Presentation := { addr := 0x100#32, dir := .write, be := 15#4, data := 0#32 }
    (Ready s 0 ∧ (s.port 0).requester.state = .online ∧ s.mgp.unit ≠ .softResetting ∧ Aligned a ∧
      s.mu.decode 0 .write 0x100#32 = .region 0 ∧ (s.region 0).rights[(0 : PortId)] = .readWrite ∧
      (s.target (s.region 0).cycle.target).state = .online ∧ (s.region 0).policy = .openAccess) ∧
    (Ready l 0 ∧ (l.region 0).policy = .allLeased ∧ (l.lease 0).state = .held ∧ (l.lease 0).holder = 0 ∧
      Spans (l.lease 0).range.start (l.lease 0).range.exp.toNat 0x100#32 ∧ (l.lease 0).mode = .exclusive) ∧
    (Ready State.reset 0 ∧ State.reset.mu.map = .boot ∧ ¬Spans State.reset.mu.windowBase 12 0x100#32 ∧
      (State.reset.target 0).state = .online) := by decide

/-- P0's write of a CLAIM to REQUEST0, standing at its IDLE port. -/
def standingWrite : Presentation := { addr := 0xFFFFF000#32, dir := .write, be := 15#4, data := 0x00002251#32 }

/-- P0's port with that write standing, and the state once it is taken. -/
def standingAt (s : State) : State := s.updPort 0 fun q => { q with standing := some standingWrite }

theorem test_hyps_WindowRowsAreAccesses :
    let s := live .allLeased
    let u := (s.updPort 0 fun q => { q with standing := none }).present 0 standingWrite
    ((s.port 0).standing = none ∧ reqCode ((claiming 0 s).port 0).request[0] = 1 ∧ reqCode (s.port 0).request[0] ≠ 1) ∧
    (((standingAt s).port 0).standing = some standingWrite ∧ ((standingAt s).port 0).access.state = .idle ∧
      ((standingAt s).port 0).requester.inReset = false ∧ reqCode (u.port 0).request[0] = 1 ∧
      reqCode (u.port 0).request[0] ≠ 2) := by decide

/-- R145: a CLAIM meets the REQUEST0 write that stands before it, and is answered. -/
theorem test_claim_after_a_standing_write :
    ((((standingAt (live .allLeased)).submitRow 1 0 15#4 0#32).port 0).mailbox.valid) = true := by decide

theorem test_hyps_RequestWriteReplacesBytes :
    (WindowOpen State.reset 0 ∧ alignedEnables 0b0010#4 = true) ∧ Names 0b1110#4 3 1 ∧ Names 0b1111#4 4 0 := by decide

theorem test_hyps_WindowReadsAnswer :
    let s := live .openAccess
    let noticed := s.placeNotice 1 2 (.dropped .timedOut)
    let tombed := s.putLease 5 { lease 0 0x100#32 .shared with state := .revoked, reason := some .host }
    let barred := s.updRequester 1 fun q => { q with state := .quarantined }
    (Ready s 0 ∧ (s.port 0).requester.state = .online ∧ s.mgp.unit ≠ .softResetting ∧ WindowAligned s) ∧
    (Ready barred 1 ∧ (barred.port 1).requester.state ≠ .offline) ∧
    ((noticed.port 1).board[(2 : Tag)] = some (.dropped .timedOut) ∧ ∀ u : Tag, u < 2 → (noticed.port 1).board[u] = none) ∧
    ((∀ u : Tag, (s.port 0).board[u] = none) ∧ (s.port 0).tombstones = 0) ∧
    ((5 : Fin 1024) < 8 ∧ (16 : Fin 1024) ≤ 16 ∧ (16 : Fin 1024) ≤ 1023 ∧ (5 : Fin 1024) ≤ 1023) ∧
    (0 < (tombed.port 0).tombstones ∧ (tombed.lease 5).state = .revoked ∧
      ∀ j : LeaseId, j < 5 → ¬((tombed.lease j).state = .revoked ∧ (tombed.lease j).holder = 0)) := by decide

theorem test_hyps_WindowWordsCarryTheirFields :
    (Reply.ofLease .granted 5 2#4).lease = some (5, 2#4) ∧ (Reply.plain .ok).lease = none ∧
    ({ Reply.plain .queued with tag := some 3 }).tag = some 3 ∧ (Reply.plain .ok).tag = none := by decide

theorem test_hyps_LeaseCommandsCommonChecks :
    let b := claiming 0 State.reset
    (WindowOpen b 0 ∧ alignedEnables 15#4 = true ∧ b.mu.map = .boot ∧ reqCode (b.port 0).request[0] = 1) ∧
    (WindowOpen State.reset 0 ∧ State.reset.mu.map = .boot ∧ reqCode (State.reset.port 0).request[0] = 0) ∧
    (WindowOpen (live .openAccess) 0 ∧ (live .openAccess).mu.map = .live ∧
      reqCode ((live .openAccess).port 0).request[0] = 0) := by decide

theorem test_hyps_ClaimIsGrantedAtOnce :
    let s := claiming 0 (live .allLeased)
    let w0 := (s.port 0).request[0]
    let q := reqRange w0 (s.port 0).request[1]
    Submits s 0 15#4 1 ∧ reqMode w0 = some .exclusive ∧ claimInRange w0 (s.port 0).request[1] = true ∧
    s.checkClaim 0 (reqTag w0) q .exclusive = .ok 0 ∧
    (∀ j : LeaseId, (s.lease j).live = true → conflict (s.lease j).range (s.lease j).mode q .exclusive = false) ∧
    (∀ w ∈ s.le.waiters, conflict w.range w.mode q .exclusive = false) ∧ (s.lease 0).state = .free ∧
    ∀ j : LeaseId, j < 0 → (s.lease j).state ≠ .free := by decide

/-- Where ranges go: over the window, in no group, in a slot, across two slots, and in none. -/
theorem test_hyps_RangeGoes :
    let m := (live .allLeased).mu
    let at' := fun (x : Word) (k : BitVec 6) => ({ start := x, exp := k } : AddrRange)
    let inGroup := fun (g : GroupId) (q : AddrRange) =>
      (m.groups[g]).valid = true ∧ Holds (m.groups[g]).base (m.groups[g]).exp.toNat q
    let slot := fun (r : RegionId) (q : AddrRange) =>
      Holds ((m.groups[(0 : GroupId)]).base + (m.regions[r]).offset) (m.regions[r]).exp.toNat q
    (Meets m.windowBase 12 (at' 0xFFFFFF00#32 8#6) ∧ ¬Meets m.windowBase 12 (at' 0xFFFFEF00#32 8#6)) ∧
    State.reset.mu.map = .boot ∧ (∀ g : GroupId, ¬inGroup g (at' 0x10000#32 8#6)) ∧
    (inGroup 0 (at' 0xF00#32 8#6) ∧ (∀ h : GroupId, h ≠ 0 → ¬inGroup h (at' 0xF00#32 8#6)) ∧
      (m.regions[(0 : RegionId)]).state ≠ .invalid ∧ slot 0 (at' 0xF00#32 8#6)) ∧
    (inGroup 0 (at' 0#32 13#6) ∧ ¬slot 0 (at' 0#32 13#6) ∧ ¬slot 1 (at' 0#32 13#6)) ∧
    (slot 1 (at' 0x1000#32 12#6) ∧ ¬Meets 0#32 12 (at' 0x1000#32 12#6)) := by decide

/-- The refusals of a CLAIM, one state each. -/
theorem test_hyps_ClaimIsRefusedInOrder :
    let s := claiming 0 (live .allLeased)
    let q : AddrRange := { start := 0x100#32, exp := 8#6 }
    (Submits (asked 0 0x00000001#32 0#32 0#32 (live .allLeased)) 0 15#4 1) ∧
    (Submits s 0 15#4 1 ∧ (State.mu (claiming 0 (live .allLeased))).decodeRange q = some 0 ∧
      s.mu.decodeRange { start := 0x3000#32, exp := 8#6 } = none) ∧
    (s.mu.decodeRange { start := 0x1000#32, exp := 8#6 } = some 1 ∧ (s.region 1).state ≠ .active) ∧
    ((s.region 0).state = .active ∧ ¬((live .openAccess).region 0).policy ≠ .openAccess) ∧
    ((s.region 0).policy ≠ .openAccess ∧ (s.region 0).rights[(2 : PortId)] ≠ .readWrite) ∧
    ((s.region 0).rights[(0 : PortId)] = .readWrite ∧
      (((s.placeNotice 0 1 (.dropped .timedOut)).port 0).board[(1 : Tag)]).isSome = true) ∧
    (let h := s.putLease 3 (lease 0 0x100#32 .shared);
      (h.lease 3).live = true ∧ (h.lease 3).holder = 0 ∧ (h.lease 3).range.overlaps q = true) ∧
    (reqMode (s.port 0).request[0] = some .exclusive ∧ ((s.port 0).board[(1 : Tag)]).isSome = false ∧ s.le.waiters = [] ∧
      ∀ j : LeaseId, ¬((s.lease j).live = true ∧ (s.lease j).holder = 0)) := by decide

/-- Every slot in use. -/
def full : State :=
  let s := live .allLeased
  { s with le := { s.le with leases := mapTable s.le.leases fun _ _ => lease 2 0x800#32 .shared, freeSlots := 0 } }

theorem test_hyps_ClaimWaitsOrIsTurnedAway :
    let q : AddrRange := { start := 0x100#32, exp := 8#6 }
    let b := (live .allLeased).putLease 7 (lease 1 0x100#32 .shared)
    (Submits (claiming 0 full) 0 15#4 1 ∧ (claiming 0 full).checkClaim 0 1 q .exclusive = .ok 0 ∧
      (∀ j : LeaseId, ((claiming 0 full).lease j).state ≠ .free) ∧
      ∀ j : LeaseId, ¬conflict ((claiming 0 full).lease j).range ((claiming 0 full).lease j).mode q .exclusive = true) ∧
    (Submits (claiming 0 b) 0 15#4 1 ∧ (claiming 0 b).checkClaim 0 1 q .exclusive = .ok 0 ∧
      (b.lease 7).live = true ∧ conflict (b.lease 7).range (b.lease 7).mode q .exclusive = true) ∧
    (Submits (claiming 3 b) 0 15#4 1 ∧ (((claiming 3 b).port 0).request[2].extractLsb' 16 16).toNat ≠ 0) := by decide

theorem test_hyps_RenewIsWeighed :
    let s := naming 2#32 (holding .shared)
    let early := naming 2#32 ((live .allLeased).putLease 0 { lease 0 0x100#32 .shared with term := 1, remaining := 2 })
    let last := naming 2#32
      ((live .allLeased).putLease 0 { lease 0 0x100#32 .shared with term := 1, remaining := 2, faults := 1 })
    let denied := s.setWaiters [waiter 1 2 0x100#32 5]
    let barring := last.updRequester 0 fun q => { q with faults := 7 }
    let crowd := barring.setWaiters [waiter 1 2 0x100#32 5, waiter 0 1 0x800#32 5]
    (barring.ptc.threshold ≤ (barring.port 0).requester.faults + 1 ∧ TagsUnique barring) ∧
    (TagsUnique crowd ∧ GrantedTo crowd (after (.renew 0 15#4 0#32) crowd) (waiter 1 2 0x100#32 5) 1 ∧
      GrantedThenBarred crowd (after (.renew 0 15#4 0#32) crowd) (waiter 0 1 0x800#32 5) 2) ∧
    (last.port 0).requester.faults + 1 < last.ptc.threshold ∧
    Submits s 0 15#4 2 ∧ (s.lease 0).generation = reqGeneration (s.port 0).request[0] ∧ (s.lease 0).state = .held ∧
    (s.lease 1).generation ≠ 3#4 ∧ (lease 1 0x100#32 .shared).holder ≠ 0 ∧
    ((early.lease 0).term * (early.region 0).share < (early.lease 0).remaining * 4 ∧
      (early.lease 0).faults + 1 < (early.region 0).earlyLimit) ∧
    ((last.region 0).earlyLimit ≤ (last.lease 0).faults + 1 ∧ TagsUnique last) ∧
    (¬(denied.lease 0).term * (denied.region 0).share < (denied.lease 0).remaining * 4 ∧ (denied.region 0).yield = true ∧
      ∃ w ∈ denied.le.waiters, conflict w.range w.mode (denied.lease 0).range (denied.lease 0).mode = true ∧
        (denied.lease 0).priority < w.priority) ∧
    (¬(s.lease 0).term * (s.region 0).share < (s.lease 0).remaining * 4 ∧ s.le.waiters = []) := by decide

theorem test_hyps_ReleaseEndsALease :
    let s := naming 3#32 (holding .shared)
    let tomb := naming 3#32 ((live .allLeased).putLease 0
      { lease 0 0x100#32 .shared with state := .revoked, reason := some .host })
    let other := naming 3#32 ((live .allLeased).putLease 0 (lease 1 0x100#32 .shared))
    Submits s 0 15#4 3 ∧ (s.lease 0).generation = reqGeneration (s.port 0).request[0] ∧ (s.lease 0).holder = 0 ∧
    (s.lease 0).state = .held ∧ (Submits tomb 0 15#4 3 ∧ (tomb.lease 0).state = .revoked) ∧
    (Submits other 0 15#4 3 ∧ (other.lease 0).holder ≠ 0) ∧
    (Submits (naming 3#32 (live .allLeased)) 0 15#4 3 ∧ ((live .allLeased).lease 0).generation ≠ 3#4) := by decide

theorem test_hyps_UpgradeAndDowngrade :
    let s := naming 4#32 (holding .shared)
    let shared := s.putLease 9 (lease 1 0x100#32 .shared)
    Submits s 0 15#4 4 ∧ Submits (naming 5#32 (holding .exclusive)) 0 15#4 5 ∧
    Submits (naming 5#32 (holding .shared)) 0 15#4 5 ∧
    ((s.lease 0).state = .held ∧ (s.lease 0).holder = 0 ∧ (s.lease 0).mode = .shared) ∧
    ((holding .exclusive).lease 0).mode = .exclusive ∧
    ((s.region 0).rights[(0 : PortId)] = .readWrite ∧ (s.region 0).rights[(2 : PortId)] ≠ .readWrite ∧
      (s.region 0).state = .active ∧ (s.region 1).state ≠ .active) ∧
    ((shared.lease 9).live = true ∧ (shared.lease 9).holder ≠ 0 ∧
      (shared.lease 9).range.overlaps (shared.lease 0).range = true) ∧
    (waiter 1 2 0x100#32 5).range.overlaps (s.lease 0).range = true ∧
    (∀ j : LeaseId, ¬((s.lease j).live = true ∧ (s.lease j).holder ≠ 0)) ∧ s.le.waiters = [] := by decide

theorem test_hyps_WithdrawRemovesTheWaiter :
    let s := asked 0 0x00000016#32 0#32 0#32 (live .allLeased)
    let w := s.setWaiters [waiter 0 1 0x100#32 5]
    (Submits s 0 15#4 6 ∧ s.le.waiters = []) ∧
    (Submits w 0 15#4 6 ∧ ∃ v ∈ w.le.waiters, v.requester = 0 ∧ v.tag = reqTag (w.port 0).request[0]) := by decide

theorem test_hyps_QueryAndLookupOnlyAnswer :
    let s := asked 0 8#32 0x100#32 0#32 (holding .shared)
    Submits (naming 7#32 (holding .shared)) 0 15#4 7 ∧ Submits s 0 15#4 8 ∧ s.mu.decode 0 .read 0x100#32 = .region 0 ∧
    s.mu.decode 0 .read 0x2000#32 = .noRegion ∧ ((s.lease 0).state = .held ∧ (s.lease 0).holder = 0 ∧
      Spans (s.lease 0).range.start (s.lease 0).range.exp.toNat 0x100#32) ∧
    ∀ j : LeaseId, ¬(((s.lease j).state = .held ∨ (s.lease j).state = .draining) ∧ (s.lease j).holder = 1) := by decide

theorem test_hyps_TickCountsDown :
    let s := (holding .shared).setWaiters [waiter 1 2 0x100#32 5]
    let ends := (((live .allLeased).putLease 0 { lease 0 0x100#32 .shared with remaining := 1 }).setWaiters
      [waiter 1 2 0x100#32 1])
    let drains := (live .allLeased).putLease 0 { lease 0 0x100#32 .shared with remaining := 1, inFlight := true }
    (ends.mu.map = .live ∧ TermsHold ends ∧ TagsUnique ends ∧ (ends.lease 0).remaining = 1 ∧
      (ends.lease 0).inFlight = false) ∧
    (TermsHold drains ∧ TagsUnique drains ∧ (∀ id : LeaseId, ¬((drains.lease id).state = .held ∧
      (drains.lease id).remaining = 1 ∧ (drains.lease id).inFlight = false)) ∧ drains.le.waiters = []) ∧
    State.reset.mu.map = .boot ∧ s.mu.map = .live ∧ TermsHold s ∧ TagsUnique s ∧ (s.lease 0).state = .held ∧
    (∀ id : LeaseId, (s.lease id).state = .held → 2 ≤ (s.lease id).remaining) ∧ ∀ w ∈ s.le.waiters, 2 ≤ w.budget := by
  decide

/-- No accepted access names lease 4. -/
abbrev Idle (s : State) : Prop :=
  ∀ q : PortId, (s.port q).access.state = .idle ∨ (s.port q).access.lease ≠ some (4, (s.lease 4).generation)

theorem test_hyps_RowsOfLargerEvents :
    let s := live .allLeased
    let expired := s.putLease 4 { lease 0 0x100#32 .shared with remaining := 0 }
    let flying := s.putLease 4 { lease 0 0x100#32 .shared with remaining := 0, inFlight := true }
    let drains := s.putLease 4
      { lease 0 0x100#32 .shared with state := .draining, inFlight := true, reason := some .host, drainEnd := some .revoked }
    let leaves := s.putLease 4
      { lease 0 0x100#32 .shared with state := .draining, inFlight := true, reason := some .silent, drainEnd := some .free }
    let retires := (s.updRegion 0 fun d => { d with state := .retiring })
    ((expired.lease 4).state = .held ∧ (expired.lease 4).remaining = 0 ∧ (expired.lease 4).inFlight = false) ∧
    ((flying.lease 4).state = .held ∧ (flying.lease 4).remaining = 0 ∧ (flying.lease 4).inFlight = true) ∧
    (s.lease 4).state ≠ .held ∧
    (∃ w ∈ (s.setWaiters [waiter 1 2 0x100#32 0]).le.waiters, w.requester = 1 ∧ w.tag = 2 ∧ w.budget = 0) ∧
    s.le.waiters = [] ∧
    ((drains.lease 4).state = .draining ∧ Idle drains ∧ (drains.region 0).state ≠ .retiring) ∧
    ((leaves.lease 4).drainEnd = some .free ∧ Idle leaves) ∧
    (let r := drains.updRegion 0 fun d => { d with state := .retiring };
      (r.lease 4).state = .draining ∧ Idle r ∧ (r.region (r.lease 4).region).state = .retiring ∧
      (r.region 0).inFlight = 0 ∧ ∀ j : LeaseId, j ≠ 4 → ¬((r.lease j).state = .draining ∧ (r.lease j).region = 0)) ∧
    (let w := drains.updRegion 0 fun d => { d with state := .retiring, inFlight := 1 };
      (w.lease 4).state = .draining ∧ Idle w ∧ (w.region 0).state = .retiring ∧ (w.region 0).inFlight ≠ 0) ∧
    ((retires.region 0).state = .retiring ∧ (retires.region 0).inFlight = 0 ∧
      ∀ j : LeaseId, ¬((retires.lease j).state = .draining ∧ (retires.lease j).region = 0)) ∧
    (s.region 0).state ≠ .retiring := by decide

theorem test_hyps_BusGrantDecision :
    let s := (live .openAccess).updAccess 2 fun _ => access .waitingBus .read none
    let f := s.updTarget 1 fun r => { r with state := .faulted }
    (onBus .read).bsq.hold ≠ none ∧ (∀ q : PortId, ((live .openAccess).port q).access.state ≠ .waitingBus) ∧
    (s.bsq.hold = none ∧ Picked s 0 2 ∧ (s.target (s.port 2).access.cycle.target).state = .online) ∧
    (f.bsq.hold = none ∧ Picked f 0 2 ∧ (f.target (f.port 2).access.cycle.target).state = .faulted ∧ TagsUnique f) := by
  decide

/-- P0's last cycle on the bus under lease 0, the slot in this state and the lease in this one. -/
def lastCycle (slot : RegionState) (state : LeaseState) (ends : Option DrainEnd) : State :=
  (((onBus .read).updAccess 0 fun a => { a with lease := some (0, 3#4), cyclesDone := 1 }).updRegion 0
    fun d => { d with state := slot }).putLease 0
      { lease 0 0x100#32 .shared with
        state := state, inFlight := true, drainEnd := ends, reason := ends.map fun _ => .host }

/-- The ends of an access: under a HELD lease, a DRAINING one of each end, with a retirement that completes and one that
does not. -/
theorem test_hyps_Ended :
    let held := lastCycle .active .held none
    let drains := lastCycle .active .draining (some .revoked)
    let leaves := lastCycle .active .draining (some .free)
    let retires := lastCycle .retiring .draining (some .revoked)
    let two := retires.putLease 5
      { lease 1 0x200#32 .shared with
        state := .draining, inFlight := true, drainEnd := some .revoked, reason := some .host }
    ((held.port 0).access.lease = some (0, (held.lease 0).generation) ∧ (held.lease 0).state = .held ∧
      (∀ id : LeaseId, ¬Drained held 0 id) ∧ ∀ r : RegionId, ¬RetireCompletes held 0 r) ∧
    (Drained drains 0 0 ∧ (drains.lease 0).drainEnd = some .revoked) ∧
    (Drained leaves 0 0 ∧ (leaves.lease 0).drainEnd = some .free) ∧
    RetireCompletes retires 0 0 ∧ (Drained two 0 0 ∧ ¬RetireCompletes two 0 0) := by
  refine ⟨?_, ?_, ?_, ?_, ?_⟩ <;> decide

theorem test_hyps_DeviceCycleCompletes :
    let s := onBus .read
    let l := s.updAccess 0 fun a => { a with cyclesDone := 1 }
    let f := s.updTarget 1 fun r => { r with state := .faulted }
    State.reset.bsq.hold = none ∧
    (s.bsq.hold = some { port := 0, periods := 0, timeout := 1024, readData := 0#32 } ∧ s.mgp.unit ≠ .softResetting ∧
      TagsUnique s ∧ ¬(s.port 0).access.width ≤ (s.port 0).access.cycle.width.bytes ∧
      ¬(s.port 0).access.width / (s.port 0).access.cycle.width.bytes ≤ (s.port 0).access.cyclesDone + 1 ∧
      (s.target 1).state = .online) ∧
    (f.target (f.port 0).access.cycle.target).state = .faulted ∧
    (l.port 0).access.width / (l.port 0).access.cycle.width.bytes ≤ (l.port 0).access.cyclesDone + 1 ∧
    ((setUnit .softResetting l).mgp.unit = .softResetting ∧ RetireAgrees (setUnit .softResetting l) ∧
      ∀ q : PortId, (l.port q).access.state ≠ .waitingBus) := by decide

theorem test_hyps_CycleTimeoutCountsAgainstTheTarget :
    let s := onBus .read
    let i := s.updAccess 0 fun a => { a with cycle := { a.cycle with ready := .internal } }
    State.reset.bsq.hold = none ∧ s.bsq.hold = some { port := 0, periods := 0, timeout := 1024, readData := 0#32 } ∧
    (i.port 0).access.cycle.ready = .internal ∧ ((s.port 0).access.cycle.ready = .external ∧
      s.mgp.unit ≠ .softResetting ∧ TagsUnique s) ∧
    ((setUnit .softResetting s).mgp.unit = .softResetting ∧ RetireAgrees (setUnit .softResetting s) ∧
      ∀ q : PortId, (s.port q).access.state ≠ .waitingBus) := by decide

theorem test_hyps_SoftResetCompletes :
    let s := setUnit .softResetting (live .openAccess)
    ¬State.reset.mgp.unit = .softResetting ∧
    (s.mgp.unit = .softResetting ∧ s.bsq.hold = none ∧ ∀ p : PortId, (s.port p).access.state ≠ .waitingBus) := by decide

/-- A scan that grants two waiters into the two lowest FREE slots, and leaves the one behind that conflicts. -/
theorem test_hyps_GrantScanServesInOrder :
    let a := waiter 1 2 0x100#32 5
    let b := waiter 0 1 0x100#32 5
    let c := waiter 2 0 0x200#32 5
    let s := (live .allLeased).setWaiters [a, b, c]
    let t := s.grantScan
    TagsUnique s ∧ ((s.lease 0).state = .free ∧ ((holding .shared).lease 0).state ≠ .free) ∧
    (s.le.waiters = [] ++ a :: [b, c] ∧ Left t a ∧ GrantedTo s t a 0) ∧
    (s.le.waiters = [a, b] ++ c :: [] ∧ Left t c ∧ GrantedTo s t c 1) ∧
    t.le.waiters = [] ++ b :: [] ∧ Meets 0x100#32 8 b.range := by
  refine ⟨?_, ?_, ?_, ?_, ?_, ?_⟩ <;> decide

theorem test_hyps_RunningUnitRejects :
    (setUnit .softResetting State.reset).mgp.unit ≠ .idle ∧ State.reset.mgp.unit = .idle ∧
    14 ≤ ((0xE#32 : Word).extractLsb' 0 4).toNat ∧ 32 ≤ ((setArg 0x20#12 State.reset).mgp.hostArg.extractLsb' 0 8).toNat := by
  decide

theorem test_hyps_GoLiveStartsTheMap :
    State.reset.mgp.unit = .idle ∧ State.reset.mu.map = .boot ∧ (live .openAccess).mu.map = .live := by decide

/-- A GROUP_STAGE word of a VALID group of 64 KiB at a base. -/
def staged (base : Word) (s : State) : State := { s with mgp := { s.mgp with groupStage := base ||| 0x1001#32 } }

theorem test_hyps_GroupSetStoresTheStagedGroup :
    let good := staged 0x50000#32 (setArg 2#12 (live .openAccess))
    let bad := { good with mgp := { good.mgp with groupStage := 0x0001#32 } }
    (good.mgp.unit = .idle ∧ (good.mgp.hostArg.extractLsb' 0 8).toNat = 2 ∧
      (stagedGroup good.mgp.groupStage).exp.toNat = 16 ∧ (stagedGroup good.mgp.groupStage).base.toNat % 2 ^ 16 = 0 ∧
      (∀ r : RegionId, groupOf r = 2 → (good.region r).state = .invalid) ∧
      ∀ h : GroupId, h ≠ 2 → (good.mu.groups[h]).valid = true →
        (good.mu.groups[h]).extent.overlaps (stagedGroup good.mgp.groupStage).extent = false) ∧
    ((stagedGroup bad.mgp.groupStage).valid = true ∧ ¬16 ≤ (stagedGroup bad.mgp.groupStage).exp.toNat) ∧
    (groupOf 0 = 0 ∧ (good.region 0).state ≠ .invalid) ∧
    (let o := staged 0#32 good;
      (o.mu.groups[(0 : GroupId)]).valid = true ∧
      (o.mu.groups[(0 : GroupId)]).extent.overlaps (stagedGroup o.mgp.groupStage).extent = true) := by decide

/-- Staging words of a region of 4 KiB at an offset, all rights, ALL_LEASED, term 8. -/
def stage (offset : Word) (s : State) : State :=
  { s with mgp := { s.mgp with regionStage := #v[offset ||| 12#32, 0xAA020011#32, 0x00240008#32] } }

theorem test_hyps_RegionCommitInstalls :
    let s := live .allLeased
    let fresh := stage 0x4000#32 (setArg 5#12 s)
    let wide := stage 0x10000#32 (setArg 5#12 s)
    let used := stage 0x4000#32 (setArg 0#12 (holding .shared))
    let above := s.putLease 0 { lease 0 0x4000#32 .shared with region := 6 }
    (fresh.mgp.unit = .idle ∧ (fresh.mgp.hostArg.extractLsb' 0 8).toNat = 5 ∧ (fresh.region 5).state = .invalid ∧
      (fresh.mu.groups[groupOf 5]).valid = true ∧
      ∃ d, stagedRegion fresh.mgp.regionStage[0] fresh.mgp.regionStage[1] fresh.mgp.regionStage[2] = some d ∧
        fitsGroup fresh.mu.groups[groupOf 5] d = true) ∧
    ((fresh.region 9).state = .invalid ∧ (fresh.mu.groups[groupOf 9]).valid = false) ∧
    (∃ d, stagedRegion wide.mgp.regionStage[0] wide.mgp.regionStage[1] wide.mgp.regionStage[2] = some d ∧
      fitsGroup wide.mu.groups[groupOf 5] d = false) ∧
    ((used.region 0).state ≠ .invalid ∧ (used.lease 0).live = true ∧ (used.lease 0).region = 0 ∧
      (used.region 0).offset ≠ 0x4000#32) ∧
    ((above.lease 0).live = true ∧ (5 : RegionId) < (above.lease 0).region ∧ groupOf (above.lease 0).region = groupOf 5 ∧
      (above.lease 0).range.overlaps { start := 0x4000#32, exp := 12#6 } = true) ∧
    (Undescribed 0xC0000000#32 0x00240008#32 ∧
      stagedRegion 12#32 0xC0000000#32 0x00240008#32 = none) := by
  refine ⟨⟨by decide, by decide, by decide, by decide, ⟨_, by rfl, by decide⟩⟩, by decide, ⟨_, by rfl, by decide⟩, by decide,
    by decide, by decide⟩

theorem test_hyps_SuspendAndResume :
    let s := live .openAccess
    s.mgp.unit = .idle ∧ ((setArg 1#12 s).mgp.hostArg.extractLsb' 0 8).toNat = 1 ∧ (s.region 0).state = .active ∧
    (s.region 1).state = .suspended ∧ s.le.resumeScans = 0 ∧ s.askScan.le.resumeScans = 0 + 1 := by decide

theorem test_hyps_RegionRetireEmptiesTheSlot :
    let s := setArg 0#12 ((holding .shared).setWaiters [waiter 1 2 0x100#32 5])
    let w := s.putLease 0 { lease 0 0x100#32 .shared with inFlight := true }
    (s.mgp.unit = .idle ∧ (s.mgp.hostArg.extractLsb' 0 8).toNat = 0 ∧ TagsUnique s ∧ (s.region 0).state = .active ∧
      (s.region 0).inFlight = 0 ∧ (s.lease 0).inFlight = false) ∧
    (s.region (s.lease 0).region).state = .active ∧ ((s.lease 0).state = .held ∧ (s.lease 0).region = 0) ∧
    (waiter 1 2 0x100#32 5 ∈ s.le.waiters ∧ (waiter 1 2 0x100#32 5).region = 0) ∧
    ((w.lease 0).state = .held ∧ (w.lease 0).inFlight = true) ∧ (s.region 2).state = .invalid := by decide

theorem test_hyps_LeaseRevokeRevokesOneLease :
    let s := setArg 0x300#12 (holding .shared)
    s.mgp.unit = .idle ∧ (s.mgp.hostArg.extractLsb' 0 8).toNat = 0 ∧ TagsUnique s ∧
    ((s.lease 0).generation = s.mgp.hostArg.extractLsb' 8 4 ∧ (s.lease 0).state = .held ∧ (s.lease 0).inFlight = false) ∧
    ¬(s.lease 1).state = .held := by decide

theorem test_hyps_PortOnlineAndRestore :
    let s := setArg 3#12 (live .openAccess)
    s.mgp.unit = .idle ∧ (s.mgp.hostArg.extractLsb' 0 8).toNat = 3 ∧ (s.port 3).requester.state = .offline ∧
    (s.port 0).requester.state = .online ∧
    ((s.updRequester 3 fun q => { q with state := .quarantined }).port 3).requester.state = .quarantined := by decide

theorem test_hyps_PortOfflineClearsTheRequester :
    let s := setArg 0#12 (holding .shared)
    s.mgp.unit = .idle ∧ (s.mgp.hostArg.extractLsb' 0 8).toNat = 0 ∧ (s.port 0).requester.state = .online ∧ TagsUnique s ∧
    ((s.lease 0).holder = 0 ∧ (s.lease 0).state = .held ∧ (s.lease 0).inFlight = false) ∧
    (s.port 3).requester.state = .offline ∧ ((setArg 3#12 s).mgp.hostArg.extractLsb' 0 8).toNat = 3 := by decide

theorem test_hyps_PurgeReclaimsTombstones :
    let s := setArg 0#12 (live .allLeased)
    let t := s.putLease 2 { lease 0 0x100#32 .shared with state := .revoked, reason := some .host }
    (s.mgp.unit = .idle ∧ (s.mgp.hostArg.extractLsb' 0 8).toNat = 0 ∧
      ∀ id : LeaseId, ¬((s.lease id).state = .revoked ∧ (s.lease id).holder = 0)) ∧
    (((t.lease 2).state = .revoked ∧ (t.lease 2).holder = 0) ∧ CountsAgree t ∧ TagsUnique t) := by decide

theorem test_hyps_TargetClearReturnsTheTarget :
    State.reset.mgp.unit = .idle ∧ ((setArg 7#12 State.reset).mgp.hostArg.extractLsb' 0 8).toNat = 7 ∧
    7 < ((setArg 8#12 State.reset).mgp.hostArg.extractLsb' 0 8).toNat := by decide

/-- P0's access waits under a lease that drains to FREE, the bus FREE, and P1 waits for its range. -/
def draining : State :=
  ((((live .openAccess).updAccess 0 fun _ => access .waitingBus .read (some (4, 3#4))).updRegion 0
    fun d => { d with inFlight := 1 }).putLease 4
      { lease 0 0x100#32 .shared with
        state := .draining, inFlight := true, reason := some .silent, drainEnd := some .free }).setWaiters
      [waiter 1 2 0x100#32 5]

/-- The same under the bus, which P1 holds. -/
def drainingHeld : State :=
  ((draining.updAccess 1 fun _ => access .onBus .read none).updRegion 0 fun d => { d with inFlight := 2 }).setHold
    (some { port := 1, periods := 0, timeout := 1024, readData := 0#32 })

theorem test_hyps_SoftResetStarts :
    ((onBus .read).mgp.unit = .idle ∧ RetireAgrees (onBus .read) ∧ (onBus .read).bsq.hold ≠ none ∧
      ∀ p : PortId, ((onBus .read).port p).access.state ≠ .waitingBus) ∧
    (RetireAgrees bothAccess ∧ bothAccess.bsq.hold ≠ none ∧ (bothAccess.port 2).access.state = .waitingBus) ∧
    InFlightAgrees bothAccess ∧
    (drainingHeld.mgp.unit = .idle ∧ RetireAgrees drainingHeld ∧ drainingHeld.bsq.hold ≠ none ∧ TagsUnique drainingHeld ∧
      (drainingHeld.port 0).access.lease = some (4, (drainingHeld.lease 4).generation) ∧
      (drainingHeld.lease 4).state = .draining ∧ (drainingHeld.lease 4).drainEnd = some .free) ∧
    InFlightAgrees drainingHeld ∧
    (draining.bsq.hold = none ∧ Drained draining 0 4 ∧ (draining.port 0).access.orphaned = false) ∧
    (State.reset.mgp.unit = .idle ∧ RetireAgrees State.reset ∧ State.reset.bsq.hold = none) := by
  refine ⟨?_, ?_, ?_, ?_, ?_, ?_, ?_⟩ <;> decide

/-- The waiter granted at the start is a FREE slot again at the completion, its generation advanced. -/
theorem test_softReset_completes_at_its_start :
    let t := after .softReset draining
    t.mgp.unit = .idle ∧ (t.port 0).answer = some .busError ∧ t.le.waiters = [] ∧ (t.lease 0).generation = 1#4 ∧
    (t.lease 4).generation = 3#4 ∧ t.le.freeSlots = 64 := by decide

theorem test_hyps_TableIndexTakesASnapshot :
    let sel := fun (n : BitVec 3) => (({ State.reset with mgp := { State.reset.mgp with tableSelect := n } }).mgp.tableSelect).toNat
    (sel 0#3 = 0 ∧ sel 1#3 = 1 ∧ sel 2#3 = 2 ∧ sel 3#3 = 3 ∧ sel 4#3 = 4 ∧ sel 5#3 = 5 ∧ 6 ≤ sel 7#3) ∧
    (((3#32 : Word).extractLsb' 0 8).toNat = 3 ∧ ((31#32 : Word).extractLsb' 0 8).toNat = 31 ∧
      ((63#32 : Word).extractLsb' 0 8).toNat = 63 ∧ ((7#32 : Word).extractLsb' 0 8).toNat = 7) ∧
    ((State.reset.port 0).access.region = none ∧ (State.reset.port 0).access.lease = none ∧
      (access .onBus .read (some (5, 3#4))).region = some 0 ∧ (access .onBus .read (some (5, 3#4))).lease = some (5, 3#4)) ∧
    waiter 1 2 0x100#32 5 ∈ ((live .allLeased).setWaiters [waiter 1 2 0x100#32 5]).le.waiters[0]? ∧
    64 ≤ ((64#32 : Word).extractLsb' 0 8).toNat := by decide

theorem test_hyps_PlainRegistersStore :
    ((23#7).toNat = 23 + (0 : PortId).val ∧ (26#7).toNat = 23 + (3 : PortId).val) ∧ (22#7).toNat = 22 ∧ 30 ≤ (30#7).toNat ∧
    State.reset.mu.map = .boot ∧ (live .openAccess).mu.map = .live ∧ (1#32 : Word).extractLsb' 1 2 = 0#2 ∧
    (2#32 : Word).extractLsb' 1 2 = 1#2 ∧ 2 ≤ ((4#32 : Word).extractLsb' 1 2).toNat := by decide

theorem test_hyps_FaultConfigWeighsTheRequesters :
    ((0x00000100#32 : Word).extractLsb' 0 5).toNat = 0 ∧ 16 < ((0x00000111#32 : Word).extractLsb' 0 5).toNat ∧
    ((0x00000008#32 : Word).extractLsb' 8 3).toNat = 0 ∧
    (let v : Word := 0x00000310#32;
      1 ≤ (v.extractLsb' 0 5).toNat ∧ (v.extractLsb' 0 5).toNat ≤ 16 ∧ 1 ≤ (v.extractLsb' 8 3).toNat ∧
      TagsUnique (holding .shared) ∧
      ∀ p : PortId, ¬(v.extractLsb' 0 5).toNat ≤ ((holding .shared).port p).requester.faults) ∧
    (let v : Word := 0x00000302#32;
      let b := (holding .shared).updRequester 0 fun q => { q with faults := 2 };
      (b.port 0).requester.state = .online ∧ (v.extractLsb' 0 5).toNat ≤ (b.port 0).requester.faults ∧ TagsUnique b ∧
      (Barred 3 (b.port 0).requester).state = .quarantined ∧ (Barred 1 (b.port 0).requester).state = .lockedOut) := by decide

/-- Frames: of wrong length, with a wrong CRC, a read, and a write. -/
theorem test_hyps_FramesAreChecked :
    let crc := { State.reset with mgp := { State.reset.mgp with crc := { enable := true, poly := .p31 } } }
    let half := { State.reset with mgp := { State.reset.mgp with
      receiver := .receiving ((natToBits 40 0x8400000031).take 17) 0#32 State.reset.mgp.crc 16 } }
    let left := { State.reset with mgp := { State.reset.mgp with receiver := .abandoned } }
    half.mgp.receiver = .receiving ((natToBits 40 0x8400000031).take 17) 0#32 { enable := false, poly := .p31 } 16 ∧
    ((natToBits 40 0x8400000031).take 17 ++ (natToBits 40 0x8400000031).drop 17).length = 40 ∧
    left.mgp.receiver = .abandoned ∧
    State.reset.mgp.receiver = .high ∧ [true, false].length ≠ 40 ∧
    (crc.mgp.crc.enable = true ∧ (natToBits 48 0x840000003100).length = 48 ∧
      BitVec.ofNat 8 (bitsToNat (((natToBits 48 0x840000003100).take 48).drop 40)) ≠
        crc8 .p31 ((natToBits 48 0x840000003100).take 40)) ∧
    (natToBits 40 0x0400000031).head? = some false ∧
    (natToBits 40 0x8400000031).take 40 = true :: natToBits 7 (4#7).toNat ++ natToBits 32 (0x31#32).toNat ∧
    (natToBits 40 0x8900000001).take 40 = true :: natToBits 7 (9#7).toNat ++ natToBits 32 (1#32).toNat := by
  refine ⟨?_, ?_, ?_, ?_, ?_, ?_, ?_, ?_, ?_⟩ <;> decide

/-- A receiver at each boundary of the bit that SDO shows, and the two that receive nothing. -/
theorem test_hyps_ReadFramesReturnRegisters :
    let crc : CrcConfig := { enable := true, poly := .p9B }
    let at' := fun (bits : List Bool) (k : Nat) =>
      ({ State.reset with mgp := { State.reset.mgp with receiver := .receiving bits 5#32 crc k } } : State)
    let shows := fun (n k : Nat) => (at' (natToBits n 0) k).mgp.receiver = .receiving (natToBits n 0) 5#32 crc k
    (shows 7 7 ∧ shows 8 8 ∧ shows 39 39 ∧ shows 40 40 ∧ shows 47 47 ∧ shows 48 48) ∧
    ((natToBits 7 0).length = 7 ∧ (natToBits 8 0).length ≠ 7 ∧ crc.enable = true ∧ State.reset.mgp.crc.enable = false) ∧
    (State.reset.mgp.receiver = .high ∧
      (after .nreset (at' [true] 0)).mgp.receiver = .abandoned) ∧
    (22#7).toNat = 19 + (3 : Fin 4).val ∧ (25#7).toNat = 23 + (2 : PortId).val ∧ 30 ≤ (30#7).toNat := by
  refine ⟨?_, ?_, ?_, ?_, ?_, ?_⟩ <;> decide

/-! A LOCKED_OUT requester, two ports, and the state that every law of the part holds of. -/

theorem test_hyps_StatesOnlyHardwareResetEnds :
    let s := (live .openAccess).updRequester 0 fun q => { q with state := .lockedOut }
    exec .tick s = .next (after .tick s) ∧ (s.port 0).requester.state = .lockedOut ∧ s.mu.map = .live ∧
    (after .nreset s).mu.map = .boot ∧ State.reset.mu.map = .boot ∧ (after .goLive State.reset).mu.map = .live := by
  refine ⟨by rfl, by decide, by decide, by decide, by decide, by decide⟩

theorem test_hyps_PortsAreSeparate :
    senderOf (.rqrstDeassertion 3) = some 3 ∧ senderOf (.release 0 15#4 0#32) = some 0 ∧ (1 : PortId) ≠ 0 ∧
    exec (.release 0 15#4 0#32) (naming 3#32 (holding .shared)) =
      .next (after (.release 0 15#4 0#32) (naming 3#32 (holding .shared))) := by
  exact ⟨by decide, by decide, by decide, by rfl⟩

/-- A LIVE state with a HELD lease and a waiter, and a tick in front of its queue. -/
def busy : State :=
  let s := (holding .shared).setWaiters [waiter 1 2 0x100#32 5]
  { s with pending := [.tick] }

theorem test_hyps_laws :
    CountsAgree busy ∧ WaitListOrdered busy ∧ TagsUnique busy ∧ TermsHold busy ∧ FaultsContained busy ∧
    HoldersOnline busy ∧ InFlightAgrees busy ∧ RangesDecode busy ∧ InvalidSlotsEmpty busy ∧ HoldersHaveRights busy ∧
    MapFits busy ∧ RetireAgrees busy ∧ LeasesShaped busy ∧ WindowAligned busy ∧ BootIsEmpty busy := by
  refine ⟨?_, ?_, ?_, ?_, ?_, ?_, ?_, ?_, ?_, ?_, ?_, ?_, ?_, ?_, ?_⟩ <;> decide

theorem test_hyps_NoConflictingLeases : NoConflicts State.reset := by decide

theorem test_hyps_laws_step : step busy = .next (after .tick { busy with pending := [] }) := by rfl

end Sys2Proof.Tests
end

section
/-! SUPPORT. What a step can do to the map, the Lease Table, the Wait List and the host command unit, said once. A `Move` is
one change of these records, with the guard the part makes it under; every step is a row of moves (`step_path`), so a law of
these records that every move keeps is kept by every step (`Path.keeps`). -/

namespace Sys2Proof.Machine

open Sys2Proof.Safety Sys2Proof.Claims

/-! ## Moves -/

/-- R61: the range of `w` decodes to its region, the region is ACTIVE, and the requester has the rights the mode needs. -/
structure Checked (s : State) (w : Waiter) : Prop where
  range : s.mu.decodeRange w.range = some w.region
  active : (s.region w.region).state = .active
  rights : RightsSuffice s w.requester w.region w.mode

/-- Two waiters of one requester that ask for the same. -/
structure SameClaim (v w : Waiter) : Prop where
  requester : v.requester = w.requester
  region : v.region = w.region
  range : v.range = w.range
  mode : v.mode = w.mode

/-- What `w` asks for has just been checked, or waits. -/
def Claimed (s : State) (w : Waiter) : Prop := Checked s w ∨ ∃ v ∈ s.le.waiters, SameClaim v w

/-- What the Lease Engine makes of the record of slot `id` in one change of the Lease Table. -/
inductive Becomes (s : State) (id : LeaseId) : Lease → Prop
  | kept : Becomes s id (s.lease id)
  | freed : Becomes s id (Lease.freeWith (s.lease id).generation)
  | counted (remaining faults : Nat) (inFlight : Bool) (h : (s.lease id).state = .held) :
      Becomes s id { s.lease id with remaining := remaining, faults := faults, inFlight := inFlight }
  | upgraded (h : (s.lease id).state = .held)
      (rights : (s.region (s.lease id).region).rights[(s.lease id).holder] = .readWrite) :
      Becomes s id { s.lease id with mode := .exclusive }
  | downgraded (h : (s.lease id).state = .held) (hm : (s.lease id).mode = .exclusive) :
      Becomes s id { s.lease id with mode := .shared }
  | revoked (x : RevokeReason) (h : (s.lease id).state = .held) :
      Becomes s id { s.lease id with state := .revoked, reason := some x }
  | draining (x : RevokeReason) (e : DrainEnd) (h : (s.lease id).state = .held ∨ (s.lease id).state = .draining) :
      Becomes s id { s.lease id with state := .draining, reason := some x, drainEnd := some e }
  | drained (h : (s.lease id).state = .draining) :
      Becomes s id { s.lease id with state := .revoked, inFlight := false, drainEnd := none }
  | granted (w : Waiter) (h : (s.lease id).state = .free) (hw : Claimed s w) : Becomes s id (GrantRecord s w id)

/-- One change the Lease Engine makes: the map and the unit stay. -/
structure Served (s t : State) : Prop where
  mu : t.mu = s.mu
  unit : t.mgp.unit = s.mgp.unit
  lease : ∀ id : LeaseId, Becomes s id (t.lease id)
  waiters : ∀ w ∈ t.le.waiters, Claimed s w

/-- R22: a slot becomes RETIRING, and the unit RUNNING its retirement. -/
def State.setRetiring (r : RegionId) (s : State) : State :=
  let s1 := s.updRegion r fun d => { d with state := .retiring }
  { s1 with mgp := { s1.mgp with unit := .retiring r } }

/-- R22, R90: the start of a retirement, with the HELD leases of the slot revoked and its waiters dropped. -/
def State.beginRetire (r : RegionId) (s : State) : State :=
  ((s.setRetiring r).revokeAll .regionRetired fun l => l.region == r).dropWaiters (fun w => w.region == r) .regionGone

/-- One change of the map, the Lease Table, the Wait List or the unit. -/
inductive Move (s : State) : State → Prop
  | served {t : State} (h : Served s t) : Move s t
  | hardwareReset : Move s s.hardwareReset
  | windowBase (v : Word) (h : s.mu.map = .boot) :
      Move s { s with mu := { s.mu with windowBase := v &&& 0xFFFFF000#32 } }
  | goLive (h : s.mu.map = .boot) : Move s { s with mu := { s.mu with map := .live } }
  | groupSet (g : GroupId) (h : s.checkGroupSet g = .ok) :
      Move s { s with mu := { s.mu with groups := s.mu.groups.set g (stagedGroup s.mgp.groupStage) } }
  | commit (r : RegionId) (staged : Region) (h : s.checkCommit r = .ok staged) :
      Move s (s.updRegion r fun old => installed old staged)
  | suspendOrResume (r : RegionId) (x : RegionState) (hx : x = .active ∨ x = .suspended)
      (h : (s.region r).state = .active ∨ (s.region r).state = .suspended) :
      Move s (s.updRegion r fun d => { d with state := x })
  | count (r : RegionId) (n : Nat) (h : (s.region r).state = .active ∨ n ≤ (s.region r).inFlight) :
      Move s (s.updRegion r fun d => { d with inFlight := n })
  | beginRetire (r : RegionId) (hu : s.mgp.unit = .idle)
      (h : (s.region r).state = .active ∨ (s.region r).state = .suspended) : Move s (s.beginRetire r)
  | retired (r : RegionId) (h : s.retireDone r = true) :
      Move s ((s.updRegion r fun d => { d with state := .invalid }).finish 6#4 .ok)
  | beginSoftReset (hu : s.mgp.unit = .idle) : Move s { s with mgp := { s.mgp with unit := .softResetting } }
  | softReset (hu : s.mgp.unit = .softResetting) : Move s s.completeSoftReset

/-- A row of moves. -/
abbrev Path : State → State → Prop := Relation.ReflTransGen Move

namespace Path

theorem of_move {s t : State} (h : Move s t) : Path s t := .single h

/-- A law that every move keeps is kept along a path. -/
theorem keeps {I : State → Prop} (hI : ∀ s t, Move s t → I s → I t) {s t : State} (h : Path s t) (hs : I s) : I t := by
  induction h with
  | refl => exact hs
  | tail _ hm ih => exact hI _ _ hm ih

theorem foldl {α : Type} {f : State → α → State} (h : ∀ s a, Path s (f s a)) (l : List α) (s : State) :
    Path s (l.foldl f s) := by
  induction l generalizing s with
  | nil => exact .refl
  | cons a l ih => exact (h s a).trans (ih (f s a))

end Path

/-! ## The Lease Engine -/

theorem SameClaim.refl (w : Waiter) : SameClaim w w := ⟨rfl, rfl, rfl, rfl⟩

theorem Claimed.waiting {s : State} {w : Waiter} (h : w ∈ s.le.waiters) : Claimed s w := .inr ⟨w, h, .refl w⟩

/-- A change of none of these records. -/
theorem aside_path {s t : State} (hmu : t.mu = s.mu) (hl : t.le.leases = s.le.leases) (hw : t.le.waiters = s.le.waiters)
    (hu : t.mgp.unit = s.mgp.unit) : Path s t := by
  refine .of_move (.served ⟨hmu, hu, fun id => ?_, fun w h => .waiting (hw ▸ h)⟩)
  have : t.lease id = s.lease id := by unfold State.lease; rw [hl]
  rw [this]
  exact .kept

theorem updPort_path (p : PortId) (f : Port → Port) (s : State) : Path s (s.updPort p f) := aside_path rfl rfl rfl rfl

theorem updRequester_path (p : PortId) (f : Requester → Requester) (s : State) : Path s (s.updRequester p f) :=
  updPort_path p _ s

theorem placeNotice_path (p : PortId) (tag : Tag) (n : ClaimNotice) (s : State) : Path s (s.placeNotice p tag n) :=
  updPort_path p _ s

theorem clearPort_path (p : PortId) (s : State) : Path s (s.clearPort p) := updPort_path p _ s

theorem raise_path (e : Event) (s : State) : Path s (s.raise e) := aside_path rfl rfl rfl rfl

theorem updTarget_path (x : TargetId) (f : Target → Target) (s : State) : Path s (s.updTarget x f) :=
  aside_path rfl rfl rfl rfl

theorem setHold_path (h : Option BusHold) (s : State) : Path s (s.setHold h) := aside_path rfl rfl rfl rfl

/-- An operation of the Lease Engine, by what it does to each slot and to the Wait List. -/
theorem LeaseWork.path {s t : State} (h : LeaseWork s t) (hl : ∀ id : LeaseId, Becomes s id (t.lease id))
    (hw : ∀ w ∈ t.le.waiters, Claimed s w) : Path s t :=
  .of_move (.served ⟨h.mu, by rw [h.mgp], hl, hw⟩)

theorem putLease_path {id : LeaseId} {l : Lease} {s : State} (h : Becomes s id l) : Path s (s.putLease id l) := by
  refine (putLease_leaseWork id l s).path (fun j => ?_) (fun w hw => .waiting (by simpa using hw))
  rw [lease_putLease]
  split
  · next e => exact e ▸ h
  · exact .kept

theorem freeLease_path (id : LeaseId) (s : State) : Path s (s.freeLease id) := putLease_path .freed

theorem setWaiters_path {ws : List Waiter} {s : State} (h : ∀ w ∈ ws, Claimed s w) : Path s (s.setWaiters ws) :=
  (setWaiters_leaseWork ws s).path (fun _ => .kept) h

theorem removeWaiters_path (out : Waiter → Bool) (s : State) : Path s (s.removeWaiters out) :=
  setWaiters_path fun _ hw => .waiting (List.mem_of_mem_filter hw)

theorem dropWaiters_path (out : Waiter → Bool) (reason : DropReason) (s : State) : Path s (s.dropWaiters out reason) :=
  (setWaiters_path fun _ hw => .waiting (List.mem_of_mem_filter hw)).trans
    (Path.foldl (fun s (w : Waiter) => updPort_path w.requester _ s) _ _)

theorem weighSlotsLow_path (n : Nat) (s : State) : Path s (s.weighSlotsLow n) := by
  unfold State.weighSlotsLow
  split
  · exact raise_path _ s
  · exact .refl

theorem grantLease_path {id : LeaseId} {w : Waiter} {s : State} (h : (s.lease id).state = .free) (hw : Claimed s w) :
    Path s (s.grantLease id w.requester w.region w.range w.mode w.priority w.term) :=
  (putLease_path (.granted w h hw)).trans (weighSlotsLow_path _ _)

/-- R96: the walk grants waiters of the list, and leaves some of them in it. -/
theorem scanWalk_path (ahead ws : List Waiter) (s : State) (h : ∀ w ∈ ahead ++ ws, w ∈ s.le.waiters) :
    Path s (scanWalk ahead ws s) := by
  induction ws generalizing ahead s with
  | nil => exact setWaiters_path fun w hw => .waiting (h w (by simpa using hw))
  | cons w ws ih =>
    have pass : Path s (scanWalk (ahead ++ [w]) ws s) := ih _ s (by simpa using h)
    unfold scanWalk
    split
    · exact pass
    split
    · exact pass
    split
    · exact setWaiters_path fun v hv => .waiting (h v hv)
    · next id hid =>
      have granted : Path s (s.grantWaiter id w) :=
        (grantLease_path (lowestFree_state hid) (.waiting (h w (by simp)))).trans (placeNotice_path _ _ _ _)
      refine granted.trans (ih ahead _ fun v hv => ?_)
      rw [waiters_grantWaiter]
      rcases List.mem_append.mp hv with hv | hv
      · exact h v (List.mem_append_left _ hv)
      · exact h v (List.mem_append_right _ (List.mem_cons_of_mem _ hv))

theorem grantScan_path (s : State) : Path s s.grantScan := scanWalk_path [] _ s fun _ h => h

theorem settle_path (before : State) {s t : State} (h : Path s t) : Path s (before.settle t) := by
  unfold State.settle
  split
  · exact h.trans (grantScan_path t)
  · exact h

theorem revoke_path (x : RevokeReason) (id : LeaseId) (s : State) : Path s (s.revoke x id) := by
  unfold State.revoke
  dsimp only
  split
  · exact .refl
  next h =>
  have hh : (s.lease id).state = .held := not_not.mp h
  split
  · exact putLease_path (.draining x _ (.inl hh))
  split
  · exact freeLease_path id s
  · exact putLease_path (.revoked x hh)

theorem revokeAll_path (x : RevokeReason) (which : Lease → Bool) (s : State) : Path s (s.revokeAll x which) := by
  refine Path.foldl (fun s id => ?_) _ s
  split
  · exact revoke_path x id s
  · exact .refl

theorem clearSlot_path (p : PortId) (id : LeaseId) (s : State) : Path s (s.clearSlot p id) := by
  unfold State.clearSlot
  dsimp only
  split
  · exact .refl
  split
  · exact .refl
  · exact revoke_path _ id s
  · next h =>
    have k : Becomes s id { s.lease id with state := .draining, reason := some .silent, drainEnd := some .free } :=
      .draining _ _ (.inr h)
    rw [← h] at k
    exact putLease_path k
  · exact freeLease_path id s

theorem clearRequest_path (p : PortId) (s : State) : Path s (s.clearRequest p) :=
  settle_path s ((Path.foldl (fun s id => clearSlot_path p id s) _ s).trans (removeWaiters_path _ _))

theorem barRequest_path (who : PortId → Bool) (s : State) : Path s (s.barRequest who) :=
  ((revokeAll_path _ _ s).trans (dropWaiters_path _ _ _)).trans (grantScan_path _)

theorem enterBarring_path (p : PortId) (s : State) : Path s (s.enterBarring p) :=
  (updPort_path p _ s).trans (raise_path _ _)

theorem countFault_path (p : PortId) (s : State) : Path s (s.countFault p) := by
  unfold State.countFault
  dsimp only
  split
  · exact (updPort_path p _ s).trans ((enterBarring_path p _).trans (barRequest_path _ _))
  · exact updPort_path p _ s

theorem freeTombstones_path (p : PortId) (s : State) : Path s (s.freeTombstones p) := by
  refine Path.foldl (fun s id => ?_) _ s
  split
  · exact freeLease_path id s
  · exact .refl

/-! ## Lease commands -/

/-- R61: what a claim that passes the checks has shown. -/
theorem checkClaim_ok {s : State} {p : PortId} {tag : Tag} {q : AddrRange} {m : Mode} {r : RegionId}
    (h : s.checkClaim p tag q m = .ok r) :
    s.mu.decodeRange q = some r ∧ (s.region r).state = .active ∧ (s.region r).policy ≠ .openAccess ∧
    RightsSuffice s p r m ∧ s.tagBusy p tag = false ∧ s.selfOverlap p q = false := by
  unfold State.checkClaim at h
  split at h
  · cases h
  next r' hd =>
  dsimp only at h
  split at h
  · cases h
  next ha =>
  split at h
  · cases h
  next hp =>
  split at h
  · cases h
  next hr =>
  split at h
  · cases h
  next ht =>
  split at h
  · cases h
  next ho =>
  cases h
  refine ⟨hd, not_not.mp ha, hp, ?_, by simpa using ht, by simpa using ho⟩
  unfold RightsSuffice
  cases m <;> cases hx : (s.region r).rights[p] <;> simp_all [Rights.allow]

/-- R60: the identity checks pass for the HELD lease of the requester with the generation given. -/
theorem identity_eq_none {s : State} {p : PortId} {id : LeaseId} {gen : Generation} :
    s.identity p id gen = none ↔
      (s.lease id).generation = gen ∧ (s.lease id).state = .held ∧ (s.lease id).holder = p := by
  unfold State.identity
  split
  · simp_all
  split
  · simp_all
    tauto
  · simp_all

theorem mem_insertWaiter {v w : Waiter} {ws : List Waiter} : v ∈ insertWaiter w ws ↔ v = w ∨ v ∈ ws := by
  induction ws with
  | nil => simp [insertWaiter]
  | cons u ws ih =>
    unfold insertWaiter
    split
    · simp only [List.mem_cons, ih]
      tauto
    · simp

/-- R85: a checked claim enters the Wait List. -/
theorem enterWaiter_path {w : Waiter} {s : State} (h : Checked s w) : Path s (s.enterWaiter w) := by
  refine .of_move (.served ⟨rfl, rfl, fun _ => .kept, fun v hv => ?_⟩)
  rcases mem_insertWaiter.mp hv with rfl | hv
  · exact .inl ⟨h.range, h.active, h.rights⟩
  · exact .waiting hv

theorem weighClaim_path {w : Waiter} {s : State} (h : Checked s w) : Path s (s.weighClaim w).1 := by
  unfold State.weighClaim
  dsimp only
  split
  · next id _ hid => exact grantLease_path (lowestFree_state hid) (.inl h)
  split
  · exact .refl
  · exact settle_path s (enterWaiter_path h)

theorem leClaim_path (p : PortId) (w0 w1 w2 : Word) (s : State) : Path s (s.leClaim p w0 w1 w2).1 := by
  unfold State.leClaim
  split
  · split
    · exact .refl
    · next hc =>
      obtain ⟨hd, ha, _, hr, _, _⟩ := checkClaim_ok hc
      exact weighClaim_path ⟨hd, ha, hr⟩
  · exact .refl

theorem leRenew_path (p : PortId) (w0 : Word) (s : State) : Path s (s.leRenew p w0).1 := by
  unfold State.leRenew
  dsimp only
  split
  · exact .refl
  next hi =>
  obtain ⟨_, hh, _⟩ := identity_eq_none.mp hi
  have early : Path s (s.putLease (reqLease w0)
      { s.lease (reqLease w0) with faults := (s.lease (reqLease w0)).faults + 1 }) := putLease_path (.counted _ _ _ hh)
  split
  · split
    · exact settle_path s (early.trans (revoke_path _ _ _))
    · exact early
  split
  · exact .refl
  · dsimp only
    exact .trans (putLease_path (.counted _ _ _ hh)) (updPort_path p _ _)

theorem leRelease_path (p : PortId) (w0 : Word) (s : State) : Path s (s.leRelease p w0).1 := by
  have free : Path s (s.settle (s.freeLease (reqLease w0))) := settle_path s (freeLease_path _ s)
  unfold State.leRelease
  dsimp only
  split
  · exact .refl
  split
  · exact .refl
  split
  · exact free
  · exact free
  · exact .refl
  · exact .refl

theorem leUpgrade_path (p : PortId) (w0 : Word) (s : State) : Path s (s.leUpgrade p w0).1 := by
  unfold State.leUpgrade
  dsimp only
  split
  · exact .refl
  next hi =>
  obtain ⟨_, hh, rfl⟩ := identity_eq_none.mp hi
  split
  · exact .refl
  split
  · exact .refl
  next hr =>
  split
  · exact .refl
  split
  · exact .refl
  split
  · exact .refl
  · exact putLease_path (.upgraded hh (not_not.mp hr))

theorem leDowngrade_path (p : PortId) (w0 : Word) (s : State) : Path s (s.leDowngrade p w0).1 := by
  unfold State.leDowngrade
  dsimp only
  split
  · exact .refl
  next hi =>
  obtain ⟨_, hh, _⟩ := identity_eq_none.mp hi
  split
  · next hm => exact settle_path s (putLease_path (.downgraded hh hm))
  · exact .refl

theorem leWithdraw_path (p : PortId) (w0 : Word) (s : State) : Path s (s.leWithdraw p w0).1 := by
  unfold State.leWithdraw
  dsimp only
  split
  · exact settle_path s (removeWaiters_path _ s)
  · exact .refl

theorem leCommand_path (p : PortId) (s : State) : Path s (s.leCommand p).1 := by
  unfold State.leCommand
  dsimp only
  split
  · exact .refl
  split
  · exact leClaim_path p _ _ _ s
  · exact leRenew_path p _ s
  · exact leRelease_path p _ s
  · exact leUpgrade_path p _ s
  · exact leDowngrade_path p _ s
  · exact leWithdraw_path p _ s
  · exact .refl
  · exact .refl
  · exact .refl

theorem submit_path (p : PortId) (s : State) : Path s (s.submit p) := by
  have answered : Path s (((s.leCommand p).1.placeReply p (s.leCommand p).2).answer p .writeDone) :=
    ((leCommand_path p s).trans (updPort_path p _ _)).trans (updPort_path p _ _)
  unfold State.submit
  dsimp only
  split
  · exact answered.trans (countFault_path p _)
  · exact answered

/-! ## Accesses -/

theorem windowRead_path (p : PortId) (w : WindowSlot) (s : State) : Path s (s.windowRead p w) := by
  unfold State.windowRead
  split
  · exact updPort_path p _ s
  · exact updPort_path p _ s
  · exact updPort_path p _ s
  all_goals exact .refl

theorem windowAccess_path (p : PortId) (a : Presentation) (s : State) : Path s (s.windowAccess p a) := by
  unfold State.windowAccess
  dsimp only
  split
  · exact (windowRead_path p _ s).trans (updPort_path p _ _)
  split
  · exact (updPort_path p _ s).trans (updPort_path p _ _)
  · exact submit_path p s
  all_goals exact updPort_path p _ s

/-- R13: an address decodes to a region that is ACTIVE, in LIVE. -/
theorem decode_region {m : MapUnit} {p : PortId} {dir : Direction} {x : Word} {r : RegionId}
    (h : m.decode p dir x = .region r) : m.map = .live ∧ (m.regions[r]).state = .active := by
  unfold MapUnit.decode at h
  split at h
  · cases h
  split at h
  · split at h <;> cases h
  next hm =>
  have hl : m.map = .live := by cases hx : m.map <;> simp_all
  refine ⟨hl, ?_⟩
  unfold MapUnit.decodeLive at h
  split at h
  · cases h
  split at h
  · cases h
  split at h
  · next ha =>
    cases h
    exact ha
  · cases h

/-- R39, R40: an access that passes check 11 is accepted with what it came with. -/
theorem checkTarget_accept {s : State} {region region' : Option RegionId} {lease lease' : Option (LeaseId × Generation)}
    {cycle cycle' : CycleFields} (h : s.checkTarget region lease cycle = .accept region' lease' cycle') :
    region' = region ∧ lease' = lease ∧ cycle' = cycle := by
  unfold State.checkTarget at h
  split at h
  · cases h
  · cases h
    exact ⟨rfl, rfl, rfl⟩

/-- R35 to R40: an accepted access names an ACTIVE region, and a HELD lease of the requester. -/
theorem judge_accept {s : State} {p : PortId} {a : Presentation} {region : Option RegionId}
    {lease : Option (LeaseId × Generation)} {cycle : CycleFields} (h : s.judge p a = .accept region lease cycle) :
    (∀ r, region = some r → (s.region r).state = .active) ∧
    ∀ id gen, lease = some (id, gen) →
      (s.lease id).state = .held ∧ (s.lease id).holder = p ∧ (s.lease id).generation = gen := by
  unfold State.judge at h
  dsimp only at h
  split at h
  · cases h
  split at h
  · cases h
  split at h
  · cases h
  split at h
  · cases h
  split at h
  · cases h
  · cases h
  · obtain ⟨rfl, rfl, _⟩ := checkTarget_accept h
    simp
  · cases h
  · cases h
  next r hd =>
  have active : (s.region r).state = .active := (decode_region hd).2
  unfold State.judgeRegion at h
  dsimp only at h
  split at h
  · cases h
  split at h
  · split at h
    · cases h
    · next id hc =>
      obtain ⟨rfl, rfl, _⟩ := checkTarget_accept h
      obtain ⟨⟨hh, ho, _, _⟩, _⟩ := cover_iff.mp hc
      refine ⟨fun _ e => by cases e; exact active, fun _ _ e => ?_⟩
      cases e
      exact ⟨hh, ho, rfl⟩
  · obtain ⟨rfl, rfl, _⟩ := checkTarget_accept h
    exact ⟨fun _ e => by cases e; exact active, fun _ _ e => by cases e⟩

theorem accept_path {p : PortId} {a : Presentation} {region : Option RegionId} {lease : Option (LeaseId × Generation)}
    {cycle : CycleFields} {s : State} (h : s.judge p a = .accept region lease cycle) :
    Path s (s.accept p a region lease cycle) := by
  obtain ⟨hr, hl⟩ := judge_accept h
  have inFlight : ∀ (t : State) (id : LeaseId), (t.lease id).state = .held →
      Path t (t.putLease id { t.lease id with inFlight := true }) := fun t id k => putLease_path (.counted _ _ _ k)
  unfold State.accept
  refine .trans ?_ (updPort_path p _ _)
  cases region with
  | none =>
    cases lease with
    | none => exact .refl
    | some l => exact inFlight s l.1 (hl l.1 l.2 rfl).1
  | some r =>
    have counted : Path s (s.updRegion r fun d => { d with inFlight := d.inFlight + 1 }) :=
      .of_move (.count r _ (.inl (hr r rfl)))
    cases lease with
    | none => exact counted
    | some l => exact counted.trans (inFlight _ l.1 (hl l.1 l.2 rfl).1)

theorem carryOut_path (p : PortId) (a : Presentation) (s : State) : Path s (s.carryOut p a) := by
  unfold State.carryOut
  split
  · unfold State.refuse
    dsimp only
    split
    · exact (updPort_path p _ s).trans (countFault_path p _)
    · exact updPort_path p _ s
  · exact windowAccess_path p a s
  · next h => exact accept_path h

theorem takeStanding_path (p : PortId) (s : State) : Path s (s.takeStanding p) := by
  unfold State.takeStanding
  split
  · exact (updPort_path p _ s).trans (carryOut_path p _ _)
  · exact .refl

theorem present_path (p : PortId) (a : Presentation) (s : State) : Path s (s.present p a) := by
  refine (takeStanding_path p s).trans ?_
  unfold State.present
  dsimp only
  split
  · exact carryOut_path p a _
  · exact updPort_path p _ _

theorem submitRow_path (code : Nat) (p : PortId) (be : BitVec 4) (data : Word) (s : State) :
    Path s (s.submitRow code p be data) := by
  unfold State.submitRow
  split
  · exact present_path p _ s
  · exact .refl

/-! ## Ends of accesses and the bus -/

theorem retireTest_path (r : RegionId) (s : State) : Path s (s.retireTest r) := by
  unfold State.retireTest
  split
  · next h => exact .of_move (.retired r h)
  · exact .refl

theorem softResetReport_path (s : State) : Path s s.softResetReport := by
  unfold State.softResetReport
  split
  · next h => exact .of_move (.softReset h.1)
  · exact .refl

theorem drainLease_path {id : LeaseId} {s : State} (h : (s.lease id).state = .draining) : Path s (s.drainLease id) := by
  unfold State.drainLease
  refine settle_path s (.trans ?_ (retireTest_path _ _))
  split
  · exact freeLease_path id s
  · exact putLease_path (.drained h)

theorem endUnder_path (id : LeaseId) (gen : Generation) (s : State) : Path s (s.endUnder id gen) := by
  unfold State.endUnder
  dsimp only
  split
  · exact .refl
  split
  · next h => exact putLease_path (.counted _ _ _ h)
  · next h => exact drainLease_path h
  · exact .refl
  · exact .refl

theorem endRegion_path (r : Option RegionId) (s : State) : Path s (s.endRegion r) := by
  cases r with
  | none => exact .refl
  | some r =>
    exact (Path.of_move (.count r ((s.region r).inFlight - 1) (.inr (Nat.sub_le _ _)))).trans (retireTest_path r _)

theorem endLease_path (l : Option (LeaseId × Generation)) (s : State) : Path s (s.endLease l) := by
  cases l with
  | none => exact .refl
  | some x => exact endUnder_path x.1 x.2 s

theorem endBus_path (p : PortId) (s : State) : Path s (s.endBus p) := by
  unfold State.endBus
  split
  · exact (setHold_path none s).trans (softResetReport_path _)
  · exact .refl

theorem endAccess_path (p : PortId) (e : AccessEnd) (s : State) : Path s (s.endAccess p e) :=
  (updPort_path p _ s).trans ((endRegion_path _ _).trans ((endLease_path _ _).trans (endBus_path p _)))

theorem grantDecision_path (s : State) : Path s s.grantDecision := by
  unfold State.grantDecision
  split
  · exact .refl
  split
  · exact .refl
  next l p _ =>
  have pointed : Path s { s with bsq := { s.bsq with pointers := s.bsq.pointers.set l p } } := aside_path rfl rfl rfl rfl
  dsimp only
  split
  · exact pointed.trans (endAccess_path p _ _)
  · exact pointed.trans ((updPort_path p _ _).trans (setHold_path _ _))

theorem cycleComplete_path (data : Word) (s : State) : Path s (s.cycleComplete data) := by
  unfold State.cycleComplete
  split
  · exact .refl
  next h _ =>
  have counted : ∀ (x : TargetId) (f : Target → Target) (g : AccessRecord → AccessRecord),
      Path s ((s.updTarget x f).updAccess h.port g) :=
    fun x f g => (updTarget_path x f s).trans (updPort_path _ _ _)
  dsimp only
  split
  · exact (counted _ _ _).trans (endAccess_path _ _ _)
  split
  · exact (counted _ _ _).trans (endAccess_path _ _ _)
  · exact (counted _ _ _).trans (setHold_path _ _)

theorem countTimeout_path (x : TargetId) (a : Word) (s : State) : Path s (s.countTimeout x a) := by
  have timedOut : Path s ((s.updTarget x fun r => r.timedOut a).raise .targetTimeout) :=
    (updTarget_path x _ s).trans (raise_path _ _)
  unfold State.countTimeout
  dsimp only
  split
  · exact timedOut.trans ((updTarget_path x _ _).trans (raise_path _ _))
  · exact timedOut

theorem cycleTimeout_path (s : State) : Path s s.cycleTimeout := by
  unfold State.cycleTimeout
  split
  · exact .refl
  dsimp only
  split
  · exact .refl
  · exact (countTimeout_path _ _ s).trans (endAccess_path _ _ _)

/-! ## Lease time -/

theorem lowerLeases_path (s : State) : Path s s.lowerLeases := by
  refine .of_move (.served ⟨rfl, rfl, fun id => ?_, fun w hw => .waiting hw⟩)
  have : s.lowerLeases.lease id = (s.lease id).lowered := mapTable_get _ _ id
  rw [this]
  unfold Lease.lowered
  split
  · next h => exact .counted _ _ _ h
  · exact .kept

theorem lowerBudgets_path (s : State) : Path s s.lowerBudgets := by
  refine setWaiters_path fun w hw => ?_
  obtain ⟨v, hv, rfl⟩ := List.mem_map.mp hw
  exact .inr ⟨v, hv, rfl, rfl, rfl, rfl⟩

theorem expireLeases_path (s : State) : Path s s.expireLeases := by
  unfold State.expireLeases
  split
  · exact (revokeAll_path _ _ s).trans (raise_path _ _)
  · exact .refl

theorem tick_path (s : State) : Path s s.tick := by
  unfold State.tick
  split
  · exact .refl
  · refine .trans (b := { s with divider := tickPeriod s.mgp.tickDiv }) (aside_path rfl rfl rfl rfl) ?_
    refine settle_path _ (.trans ?_ (dropWaiters_path _ _ _))
    exact ((lowerLeases_path _).trans (expireLeases_path _)).trans (lowerBudgets_path _)

theorem expireOne_path (id : LeaseId) (s : State) : Path s (s.expireOne id) := by
  unfold State.expireOne
  split
  · exact settle_path s ((revoke_path _ id s).trans (raise_path _ _))
  · exact .refl

theorem timeOutOne_path (p : PortId) (tag : Tag) (s : State) : Path s (s.timeOutOne p tag) :=
  settle_path s (dropWaiters_path _ _ s)

theorem drainOne_path (id : LeaseId) (s : State) : Path s (s.drainOne id) := by
  unfold State.drainOne
  split
  · next h => exact drainLease_path h.1
  · exact .refl

theorem refclkPeriod_path (s : State) : Path s s.refclkPeriod := by
  unfold State.refclkPeriod
  split
  · exact .refl
  split
  · exact tick_path s
  · exact aside_path rfl rfl rfl rfl

theorem bclkPeriod_path (ready : Bool) (data : Word) (s : State) : Path s (s.bclkPeriod ready data) := by
  unfold State.bclkPeriod
  split
  · exact .refl
  dsimp only
  split
  · exact cycleComplete_path data s
  split
  · exact cycleTimeout_path s
  · exact setHold_path _ s

theorem resumeScan_path (s : State) : Path s s.resumeScan := by
  unfold State.resumeScan
  split
  · exact .refl
  · refine .trans ?_ (grantScan_path _)
    exact aside_path rfl rfl rfl rfl

/-! ## Host commands -/

section Host

variable {s : State} (hu : s.mgp.unit = .idle)
include hu

/-- R178: a command completes in the event that took it. -/
theorem finish_path (code : BitVec 4) (result : HostResult) : Path s (s.finish code result) :=
  aside_path rfl rfl rfl hu.symm

theorem hostGoLive_path : Path s s.hostGoLive := by
  unfold State.hostGoLive
  split
  · exact finish_path hu _ _
  next h =>
  have hb : s.mu.map = .boot := by cases hm : s.mu.map <;> simp_all
  exact (Path.of_move (.goLive hb)).trans (aside_path rfl rfl rfl hu.symm)

theorem hostGroupSet_path (arg : BitVec 12) : Path s (s.hostGroupSet arg) := by
  unfold State.hostGroupSet
  split
  · exact finish_path hu _ _
  dsimp only
  split
  · next h => exact (Path.of_move (.groupSet _ h)).trans (finish_path (by exact hu) _ _)
  · exact finish_path hu _ _

theorem hostRegionCommit_path (arg : BitVec 12) : Path s (s.hostRegionCommit arg) := by
  unfold State.hostRegionCommit
  split
  · exact finish_path hu _ _
  split
  · exact finish_path hu _ _
  · next h => exact (Path.of_move (.commit _ _ h)).trans (finish_path (by exact hu) _ _)

theorem hostRegionSuspend_path (arg : BitVec 12) : Path s (s.hostRegionSuspend arg) := by
  unfold State.hostRegionSuspend
  split
  · exact finish_path hu _ _
  split
  · next h => exact (Path.of_move (.suspendOrResume _ .suspended (.inr rfl) (.inl h))).trans (finish_path (by exact hu) _ _)
  · exact finish_path hu _ _

theorem hostRegionResume_path (arg : BitVec 12) : Path s (s.hostRegionResume arg) := by
  unfold State.hostRegionResume
  split
  · exact finish_path hu _ _
  split
  · next h =>
    exact (Path.of_move (.suspendOrResume _ .active (.inl rfl) (.inr h))).trans (aside_path rfl rfl rfl hu.symm)
  · exact finish_path hu _ _

theorem hostRegionRetire_path (arg : BitVec 12) : Path s (s.hostRegionRetire arg) := by
  unfold State.hostRegionRetire
  split
  · exact finish_path hu _ _
  split
  · next h => exact (settle_path _ (.of_move (.beginRetire _ hu h))).trans (retireTest_path _ _)
  · exact finish_path hu _ _

theorem hostLeaseRevoke_path (arg : BitVec 12) : Path s (s.hostLeaseRevoke arg) := by
  unfold State.hostLeaseRevoke
  split
  · exact finish_path hu _ _
  split
  · exact finish_path hu _ _
  · next id _ _ =>
    have unit : (s.settle (s.revoke .host id)).mgp.unit = .idle := by
      rw [(settle_leaseWork s (revoke_leaseWork .host id s)).mgp]
      exact hu
    exact (settle_path s (revoke_path .host id s)).trans (finish_path unit _ _)

theorem hostPurge_path (arg : BitVec 12) : Path s (s.hostPurge arg) := by
  unfold State.hostPurge
  split
  · exact finish_path hu _ _
  · next p _ =>
    have work : LeaseWork s (s.settle ((s.freeTombstones p).updPort p fun q => { q with board := Vector.replicate 4 none })) :=
      settle_leaseWork s ((freeTombstones_leaseWork p s).trans (updPort_leaseWork p _ _ fun _ => rfl))
    exact (settle_path s ((freeTombstones_path p s).trans (updPort_path p _ _))).trans
      (finish_path (by rw [work.mgp]; exact hu) _ _)

theorem hostPortOnline_path (arg : BitVec 12) : Path s (s.hostPortOnline arg) := by
  unfold State.hostPortOnline
  split
  · exact finish_path hu _ _
  split
  · exact .trans (updPort_path _ _ s) (finish_path (by exact hu) _ _)
  · exact finish_path hu _ _

theorem hostPortOffline_path (arg : BitVec 12) : Path s (s.hostPortOffline arg) := by
  unfold State.hostPortOffline
  split
  · exact finish_path hu _ _
  split
  · next p _ _ =>
    have unit : ((s.setRequester p .offline).clearRequest p).mgp.unit = .idle := by
      rw [(clearRequest_leaseWork p _).mgp]
      exact hu
    refine .trans ?_ (finish_path (by exact unit) _ _)
    exact ((updRequester_path p _ s).trans (clearRequest_path p _)).trans (clearPort_path p _)
  · exact finish_path hu _ _

theorem hostPortRestore_path (arg : BitVec 12) : Path s (s.hostPortRestore arg) := by
  unfold State.hostPortRestore
  split
  · exact finish_path hu _ _
  split
  · exact .trans (updPort_path _ _ s) (finish_path (by exact hu) _ _)
  · exact finish_path hu _ _

theorem hostTargetClear_path (arg : BitVec 12) : Path s (s.hostTargetClear arg) := by
  unfold State.hostTargetClear
  split
  · exact finish_path hu _ _
  · exact .trans (updTarget_path _ _ s) (finish_path (by exact hu) _ _)

theorem startSoftReset_path : Path s s.startSoftReset := by
  unfold State.startSoftReset
  refine .trans ?_ (softResetReport_path _)
  refine .trans ?_ (Path.foldl (fun s p => endAccess_path p _ s) _ _)
  exact (Path.of_move (.beginSoftReset hu)).trans (aside_path rfl rfl rfl rfl)

theorem dispatch_path (code : BitVec 4) (arg : BitVec 12) : Path s (s.dispatch code arg) := by
  unfold State.dispatch
  split
  · exact hostGoLive_path hu
  · exact hostGroupSet_path hu arg
  · exact hostRegionCommit_path hu arg
  · exact hostRegionSuspend_path hu arg
  · exact hostRegionResume_path hu arg
  · exact hostRegionRetire_path hu arg
  · exact hostLeaseRevoke_path hu arg
  · exact hostPortOnline_path hu arg
  · exact hostPortOffline_path hu arg
  · exact hostPortRestore_path hu arg
  · exact hostPurge_path hu arg
  · exact hostTargetClear_path hu arg
  · exact startSoftReset_path hu
  · exact finish_path hu _ _

end Host

theorem hostCommand_path (code : BitVec 4) (s : State) : Path s (s.hostCommand code) := by
  unfold State.hostCommand
  split
  · next hu =>
    refine .trans ?_ (dispatch_path (by exact hu) code _)
    exact aside_path rfl rfl rfl rfl
  · exact raise_path _ s

/-! ## Registers and frames -/

theorem writeWindowBase_path (v : Word) (s : State) : Path s (s.writeWindowBase v) := by
  unfold State.writeWindowBase
  split
  · next h => exact .of_move (.windowBase v h)
  · exact .refl

theorem writeCrcControl_path (v : Word) (s : State) : Path s (s.writeCrcControl v) := by
  unfold State.writeCrcControl
  split
  · exact aside_path rfl rfl rfl rfl
  · exact aside_path rfl rfl rfl rfl
  · exact .refl

theorem writeFaultConfig_path (v : Word) (s : State) : Path s (s.writeFaultConfig v) := by
  unfold State.writeFaultConfig
  dsimp only
  split
  · have lowered : Path s (allPorts.foldl (fun s p => s.lowerQuarantine p)
        { s with ptc := { s.ptc with threshold := field v 0 5, limit := field v 8 3 } }) := by
      refine .trans ?_ (Path.foldl (fun s p => ?_) allPorts _)
      · exact aside_path rfl rfl rfl rfl
      · exact updRequester_path p _ s
    split
    · refine .trans lowered (.trans ?_ (barRequest_path _ _))
      refine Path.foldl (fun s p => ?_) allPorts _
      split
      · exact enterBarring_path p s
      · exact .refl
    · exact lowered
  · exact .refl

theorem setLimit_path (t : TargetId) (n : Nat) (s : State) : Path s (s.setLimit t n) := updTarget_path t _ s

theorem writeTargetLimit_path (t0 t1 t2 t3 : TargetId) (v : Word) (s : State) :
    Path s (s.writeTargetLimit t0 t1 t2 t3 v) :=
  (((setLimit_path t0 _ s).trans (setLimit_path t1 _ _)).trans (setLimit_path t2 _ _)).trans (setLimit_path t3 _ _)

theorem writeRegister_path (n : BitVec 7) (v : Word) (s : State) : Path s (s.writeRegister n v) := by
  unfold State.writeRegister
  split
  case h_1 => exact writeCrcControl_path v s
  case h_2 => exact writeWindowBase_path v s
  case h_8 => exact hostCommand_path _ s
  case h_20 => exact writeFaultConfig_path v s
  case h_21 => exact writeTargetLimit_path 0 1 2 3 v s
  case h_22 => exact writeTargetLimit_path 4 5 6 7 v s
  all_goals exact aside_path rfl rfl rfl rfl

theorem ncsFall_path (s : State) : Path s s.ncsFall := by
  unfold State.ncsFall
  split
  · exact aside_path rfl rfl rfl rfl
  · exact .refl
  · exact .refl

theorem sckRise_path (sdi : Bool) (s : State) : Path s (s.sckRise sdi) := by
  unfold State.sckRise
  split
  · exact aside_path rfl rfl rfl rfl
  · exact .refl
  · exact .refl

theorem sckFall_path (s : State) : Path s s.sckFall := by
  unfold State.sckFall
  split
  · exact aside_path rfl rfl rfl rfl
  · exact .refl
  · exact .refl

theorem takeFrame_path (bits : List Bool) (crc : CrcConfig) (s : State) : Path s (s.takeFrame bits crc) := by
  unfold State.takeFrame
  split
  · exact raise_path _ s
  split
  · exact raise_path _ s
  split
  · exact writeRegister_path _ _ s
  · exact .refl

theorem ncsRise_path (s : State) : Path s s.ncsRise := by
  unfold State.ncsRise
  split
  · refine .trans ?_ (takeFrame_path _ _ _)
    exact aside_path rfl rfl rfl rfl
  · exact aside_path rfl rfl rfl rfl
  · exact .refl

theorem lowPeriod_path (bits : List Bool) (s : State) : Path s (s.lowPeriod bits) :=
  ((ncsFall_path s).trans (Path.foldl (fun s b => (sckRise_path b s).trans (sckFall_path _)) bits _)).trans
    (ncsRise_path _)

/-! ## A step -/

theorem enterReset_path (p : PortId) (s : State) : Path s (s.enterReset p) := updPort_path p _ s

theorem assertReset_path (p : PortId) (s : State) : Path s (s.assertReset p) :=
  ((enterReset_path p s).trans (clearRequest_path p _)).trans (clearPort_path p _)

theorem deassertReset_path (p : PortId) (s : State) : Path s (s.deassertReset p) :=
  (updPort_path p _ s).trans (takeStanding_path p _)

theorem pinEvent_path (e : PinEvent) (s : State) : Path s (s.pinEvent e) := by
  cases e with
  | refclk => exact refclkPeriod_path s
  | bclk ready data => exact bclkPeriod_path ready data s
  | ncsFall => exact ncsFall_path s
  | sckRise sdi => exact sckRise_path sdi s
  | sckFall => exact sckFall_path s

theorem idleStep_path (s : State) : Path s s.idleStep := by
  unfold State.idleStep
  split
  · exact resumeScan_path s
  split
  · exact takeStanding_path _ s
  split
  · exact grantDecision_path s
  split
  · exact .refl
  · refine .trans ?_ (pinEvent_path _ _)
    exact aside_path rfl rfl rfl rfl

/-- Every command is a row of moves. -/
theorem exec_path {c : Instr} {s t : State} (h : exec c s = .next t) : Path s t := by
  cases c <;> cases h
  case powerOnReset => exact .of_move .hardwareReset
  case nreset => exact .of_move .hardwareReset
  case rqrstAssertion p => exact assertReset_path p s
  case rqrstDeassertion p => exact deassertReset_path p s
  case tick => exact tick_path s
  case leaseExpiry id => exact expireOne_path id s
  case waitBudgetExpiry p tag => exact timeOutOne_path p tag s
  case busGrantDecision => exact grantDecision_path s
  case deviceCycleComplete data => exact cycleComplete_path data s
  case busTimeoutExpiry => exact cycleTimeout_path s
  case leaseDrainEnd id => exact drainOne_path id s
  case retireCompletion r => exact retireTest_path r s
  case softResetCompletion => exact softResetReport_path s
  case resumeGrantScan => exact resumeScan_path s
  case tableIndexWrite => exact aside_path rfl rfl rfl rfl
  case eventFlagsWrite => exact aside_path rfl rfl rfl rfl
  case eventEnableWrite => exact aside_path rfl rfl rfl rfl
  case windowBaseWrite v => exact writeWindowBase_path v s
  case faultConfigWrite v => exact writeFaultConfig_path v s
  case crcControlWrite v => exact writeCrcControl_path v s
  case registerWrite n v => exact writeRegister_path n v s
  case ncsRise bits => exact lowPeriod_path bits s
  case claim | renew | release | upgrade | downgrade | withdraw | query | lookup => exact submitRow_path _ _ _ _ s
  case accessArrival | requestWrite | resultRead | portStatusRead | noticeRead => exact present_path _ _ s
  all_goals exact hostCommand_path _ s

/-- Every step is a row of moves. -/
theorem step_path {s t : State} (h : step s = .next t) : Path s t := by
  unfold step at h
  split at h
  · cases h
    exact idleStep_path s
  · next c rest _ =>
    have taken : Path s { s with pending := rest } := aside_path rfl rfl rfl rfl
    exact taken.trans (exec_path h)

end Sys2Proof.Machine
end

section
/-! SUPPORT. Ranges, and the searches of the map: what an address and a range decode to, slot by slot, and when a change of
the map leaves a range where it was. -/

namespace Sys2Proof.Machine

open Sys2Proof.Safety

/-! ## Ranges -/

theorem AddrRange.lo_lt_hi (r : AddrRange) : r.lo < r.hi := Nat.lt_add_of_pos_right (Nat.two_pow_pos _)

theorem AddrRange.contains_iff {r : AddrRange} {x : Word} : r.contains x = true ↔ r.lo ≤ x.toNat ∧ x.toNat < r.hi := by
  simp [AddrRange.contains]

theorem AddrRange.covers_iff {r q : AddrRange} : r.covers q = true ↔ r.lo ≤ q.lo ∧ q.hi ≤ r.hi := by
  simp [AddrRange.covers]

theorem AddrRange.overlaps_iff {r q : AddrRange} : r.overlaps q = true ↔ r.lo < q.hi ∧ q.lo < r.hi := by
  simp [AddrRange.overlaps]

theorem AddrRange.overlaps_comm (r q : AddrRange) : r.overlaps q = q.overlaps r := by
  unfold AddrRange.overlaps
  exact Bool.and_comm _ _

theorem AddrRange.contains_of_covers {r q : AddrRange} {x : Word} (h : r.covers q = true) (hx : q.contains x = true) :
    r.contains x = true := by
  rw [contains_iff] at *
  rw [covers_iff] at h
  omega

theorem AddrRange.overlaps_of_contains {r q : AddrRange} {x : Word} (h : r.contains x = true) (hx : q.contains x = true) :
    r.overlaps q = true := by
  rw [contains_iff] at h hx
  rw [overlaps_iff]
  omega

/-- Two ranges that contain a third share its bytes. -/
theorem AddrRange.overlaps_of_covers {r r' q : AddrRange} (h : r.covers q = true) (h' : r'.covers q = true) :
    r.overlaps r' = true := by
  have := q.lo_lt_hi
  rw [covers_iff] at h h'
  rw [overlaps_iff]
  omega

/-! ## Searches in ascending order -/

/-- A search of a list in ascending order finds the lowest element that passes. -/
theorem find?_ascending_iff {n : Nat} {l : List (Fin n)} (hl : l.Pairwise (· < ·)) {test : Fin n → Bool} {a : Fin n} :
    l.find? test = some a ↔ (a ∈ l ∧ test a = true) ∧ ∀ b ∈ l, b < a → test b = false := by
  induction l with
  | nil => simp
  | cons x l ih =>
    obtain ⟨hx, hl⟩ := List.pairwise_cons.mp hl
    by_cases h : test x = true
    · rw [List.find?_cons_of_pos h]
      constructor
      · rintro ⟨⟩
        refine ⟨⟨List.mem_cons_self, h⟩, fun b hb hlt => ?_⟩
        rcases List.mem_cons.mp hb with rfl | hb
        · exact absurd hlt (lt_irrefl _)
        · exact absurd hlt (not_lt_of_gt (hx b hb))
      · rintro ⟨⟨ha, _⟩, hlow⟩
        rcases List.mem_cons.mp ha with rfl | ha
        · rfl
        · rw [hlow x List.mem_cons_self (hx a ha)] at h
          cases h
    · rw [List.find?_cons_of_neg h, ih hl]
      simp only [List.mem_cons, forall_eq_or_imp]
      constructor
      · rintro ⟨⟨ha, ht⟩, hlow⟩
        exact ⟨⟨.inr ha, ht⟩, fun _ => by simpa using h, hlow⟩
      · rintro ⟨⟨rfl | ha, ht⟩, _, hlow⟩
        · exact absurd ht h
        · exact ⟨⟨ha, ht⟩, hlow⟩

theorem allGroups_ascending : allGroups.Pairwise (· < ·) := by decide

theorem slotsOf_ascending (g : GroupId) : (slotsOf g).Pairwise (· < ·) := by
  revert g
  decide

/-! ## Where a range goes (R15) -/

/-- A VALID group contains the range. -/
def MapUnit.groupHolds (m : MapUnit) (q : AddrRange) (g : GroupId) : Bool :=
  (m.groups[g]).valid && (m.groups[g]).extent.covers q

/-- A slot that is not INVALID lies over a byte of the range. -/
def MapUnit.slotMeets (m : MapUnit) (q : AddrRange) (r : RegionId) : Bool :=
  (m.regions[r]).state != .invalid && (m.extent r).overlaps q

theorem groupHolds_iff {m : MapUnit} {q : AddrRange} {g : GroupId} :
    m.groupHolds q g = true ↔ (m.groups[g]).valid = true ∧ (m.groups[g]).extent.covers q = true := by
  rw [MapUnit.groupHolds, Bool.and_eq_true]

theorem slotMeets_iff {m : MapUnit} {q : AddrRange} {r : RegionId} :
    m.slotMeets q r = true ↔ (m.regions[r]).state ≠ .invalid ∧ (m.extent r).overlaps q = true := by
  rw [MapUnit.slotMeets, Bool.and_eq_true, bne_iff_ne]

/-- R15: a range decodes to the lowest slot over it, in the lowest VALID group that contains it, where the slot contains it. -/
theorem decodeRange_eq_some_iff {m : MapUnit} {q : AddrRange} {r : RegionId} :
    m.decodeRange q = some r ↔
      (m.map = .live ∧ m.window.overlaps q = false) ∧
      (m.groupHolds q (groupOf r) = true ∧ ∀ g : GroupId, g < groupOf r → m.groupHolds q g = false) ∧
      (m.slotMeets q r = true ∧ ∀ k : RegionId, k < r → groupOf k = groupOf r → m.slotMeets q k = false) ∧
      (m.extent r).covers q = true := by
  have group : ∀ g, allGroups.find? (m.groupHolds q) = some g ↔
      m.groupHolds q g = true ∧ ∀ h : GroupId, h < g → m.groupHolds q h = false := fun g => by
    rw [find?_ascending_iff allGroups_ascending]
    simp
  have slot : ∀ g, (slotsOf g).find? (m.slotMeets q) = some r ↔
      groupOf r = g ∧ m.slotMeets q r = true ∧ ∀ k : RegionId, k < r → groupOf k = g → m.slotMeets q k = false := fun g => by
    rw [find?_ascending_iff (slotsOf_ascending g)]
    simp only [mem_slotsOf]
    tauto
  have opened : (m.map = .boot ∨ m.window.overlaps q = true) ↔ ¬(m.map = .live ∧ m.window.overlaps q = false) := by
    cases m.map <;> cases m.window.overlaps q <;> simp
  unfold MapUnit.decodeRange
  change (if _ then none else match allGroups.find? (m.groupHolds q) with
    | none => none
    | some g => match (slotsOf g).find? (m.slotMeets q) with
      | none => none
      | some r => if (m.extent r).covers q then some r else none) = some r ↔ _
  constructor
  · intro h
    split at h
    · cases h
    next hopen =>
    split at h
    · cases h
    next g hg =>
    split at h
    · cases h
    next r' hr =>
    split at h
    · next hc =>
      cases h
      obtain ⟨rfl, hs, hlow⟩ := (slot g).mp hr
      exact ⟨by rw [opened] at hopen; exact not_not.mp hopen, (group _).mp hg, ⟨hs, hlow⟩, hc⟩
    · cases h
  · rintro ⟨hopen, hg, ⟨hs, hlow⟩, hc⟩
    rw [if_neg (by rw [opened]; exact not_not.mpr hopen), (group _).mpr hg]
    dsimp only
    rw [(slot _).mpr ⟨rfl, hs, hlow⟩]
    exact if_pos hc

/-- The slot a range decodes to is not INVALID. -/
theorem state_of_decodeRange {m : MapUnit} {q : AddrRange} {r : RegionId} (h : m.decodeRange q = some r) :
    (m.regions[r]).state ≠ .invalid := by
  obtain ⟨_, _, ⟨hs, _⟩, _⟩ := decodeRange_eq_some_iff.mp h
  exact (slotMeets_iff.mp hs).1

theorem decodeRange_of_boot {m : MapUnit} {q : AddrRange} (h : m.map = .boot) : m.decodeRange q = none := by
  unfold MapUnit.decodeRange
  rw [if_pos (.inl h)]

/-- A range stays where it decodes to when its slot stays where it is and no other group or lower slot comes over it. -/
theorem decodeRange_stays {m m' : MapUnit} {q : AddrRange} {r : RegionId} (h : m.decodeRange q = some r)
    (hm : m'.map = m.map) (hw : m'.windowBase = m.windowBase)
    (hg : m'.groups[groupOf r] = m.groups[groupOf r])
    (hlg : ∀ g : GroupId, g ≠ groupOf r → m'.groupHolds q g = true → m.groupHolds q g = true)
    (hi : (m'.regions[r]).state ≠ .invalid) (he : m'.extent r = m.extent r)
    (hlr : ∀ k : RegionId, k < r → groupOf k = groupOf r → m'.slotMeets q k = true → m.slotMeets q k = true) :
    m'.decodeRange q = some r := by
  obtain ⟨⟨hlive, hwin⟩, ⟨hgr, hglow⟩, ⟨hs, hslow⟩, hc⟩ := decodeRange_eq_some_iff.mp h
  refine decodeRange_eq_some_iff.mpr ⟨⟨hm.trans hlive, ?_⟩, ⟨?_, fun g hlt => ?_⟩, ⟨?_, fun k hlt hk => ?_⟩, he ▸ hc⟩
  · unfold MapUnit.window at *
    rw [hw]
    exact hwin
  · rw [groupHolds_iff] at *
    rw [hg]
    exact hgr
  · exact Bool.eq_false_of_not_eq_true fun ht => by simpa [hglow g hlt] using hlg g hlt.ne ht
  · exact slotMeets_iff.mpr ⟨hi, he ▸ (slotMeets_iff.mp hs).2⟩
  · exact Bool.eq_false_of_not_eq_true fun ht => by simpa [hslow k hlt hk] using hlr k hlt hk ht

/-- A slot lies over the same bytes where its record keeps its extent and does not leave INVALID. -/
theorem slotMeets_of_region {m m' : MapUnit} {q : AddrRange} {r : RegionId} (h : m'.slotMeets q r = true)
    (hg : m'.groups[groupOf r] = m.groups[groupOf r])
    (hi : (m'.regions[r]).state ≠ .invalid → (m.regions[r]).state ≠ .invalid)
    (ho : (m'.regions[r]).offset = (m.regions[r]).offset) (he : (m'.regions[r]).exp = (m.regions[r]).exp) :
    m.slotMeets q r = true := by
  have extent : m'.extent r = m.extent r := by unfold MapUnit.extent Region.extent; rw [hg, ho, he]
  rw [slotMeets_iff] at *
  exact ⟨hi h.1, extent ▸ h.2⟩

/-- R13, R24: where the VALID groups are disjoint, every address of a range decodes to the slot the range decodes to. -/
theorem decode_of_decodeRange {m : MapUnit} {q : AddrRange} {r : RegionId} {x : Word}
    (hd : ∀ g h : GroupId, g ≠ h → (m.groups[g]).valid = true → (m.groups[h]).valid = true →
      (m.groups[g]).extent.overlaps (m.groups[h]).extent = false)
    (h : m.decodeRange q = some r) (hx : q.contains x = true) (p : PortId) (dir : Direction) :
    m.decode p dir x = .region r ∨ m.decode p dir x = .inactive r := by
  obtain ⟨⟨hlive, hwin⟩, ⟨hg, _⟩, ⟨hs, hlow⟩, hc⟩ := decodeRange_eq_some_iff.mp h
  obtain ⟨hv, hgc⟩ := groupHolds_iff.mp hg
  have inGroup := AddrRange.contains_of_covers hgc hx
  have noWindow : m.window.contains x = false := Bool.eq_false_of_not_eq_true fun hw => by
    simp [AddrRange.overlaps_of_contains hw hx] at hwin
  have group : m.groupAt x = some (groupOf r) := by
    unfold MapUnit.groupAt
    rw [find?_ascending_iff allGroups_ascending]
    refine ⟨⟨mem_allGroups _, Bool.and_eq_true_iff.mpr ⟨hv, inGroup⟩⟩, fun g _ hlt => ?_⟩
    by_contra hne
    simp only [Bool.not_eq_false, Bool.and_eq_true] at hne
    obtain ⟨hgv, hgx⟩ := hne
    have hno := hd g (groupOf r) hlt.ne hgv hv
    rw [AddrRange.overlaps_of_contains hgx inGroup] at hno
    cases hno
  have slot : m.slotAt (groupOf r) x = some r := by
    unfold MapUnit.slotAt
    rw [find?_ascending_iff (slotsOf_ascending _)]
    refine ⟨⟨(mem_slotsOf _ _).mpr rfl, ?_⟩, fun k hk hlt => ?_⟩
    · exact Bool.and_eq_true_iff.mpr ⟨bne_iff_ne.mpr (state_of_decodeRange h), AddrRange.contains_of_covers hc hx⟩
    by_contra hne
    simp only [Bool.not_eq_false, Bool.and_eq_true, bne_iff_ne] at hne
    obtain ⟨hki, hkx⟩ := hne
    have hmeets := slotMeets_iff.mpr ⟨hki, AddrRange.overlaps_of_contains hkx hx⟩
    rw [hlow k hlt ((mem_slotsOf _ _).mp hk)] at hmeets
    cases hmeets
  unfold MapUnit.decode
  rw [noWindow, hlive]
  simp only [Bool.false_eq_true, if_false, reduceCtorEq]
  unfold MapUnit.decodeLive
  rw [group]
  dsimp only
  rw [slot]
  dsimp only
  split
  · exact .inl rfl
  · exact .inr rfl

end Sys2Proof.Machine
end

section
/-! SUPPORT. The host commands of the Map Unit: how the unit takes a code, and the checks of GROUP_SET and REGION_COMMIT in
the rules' words. -/

namespace Sys2Proof.Machine

open Sys2Proof.Safety Sys2Proof.Claims

/-! ## The unit takes a code (R178, R189) -/

/-- R178: HOST_CMD takes the code that was written. -/
def State.takeCode (code : BitVec 4) (s : State) : State := { s with mgp := { s.mgp with hostCmd := code } }

theorem hostCommand_of_idle {s : State} (hu : s.mgp.unit = .idle) (code : BitVec 4) :
    s.hostCommand code = (s.takeCode code).dispatch code s.mgp.hostArg :=
  if_pos hu

@[simp] theorem takeCode_region (code : BitVec 4) (s : State) (r : RegionId) : (s.takeCode code).region r = s.region r := rfl
@[simp] theorem takeCode_lease (code : BitVec 4) (s : State) (id : LeaseId) : (s.takeCode code).lease id = s.lease id := rfl

theorem argFin_of_eq {arg : BitVec 12} {n : Nat} {i : Fin n} (h : (arg.extractLsb' 0 8).toNat = i.val) :
    argFin arg n = some i := by
  have hlt : argNumber arg < n := lt_of_eq_of_lt h i.isLt
  unfold argFin
  rw [dif_pos hlt]
  exact congrArg some (Fin.ext h)

theorem argFin_of_le {arg : BitVec 12} {n : Nat} (h : n ≤ (arg.extractLsb' 0 8).toNat) : argFin arg n = none :=
  dif_neg (Nat.not_lt.mpr h)

/-! ## GROUP_SET (R7) -/

theorem stagedGroupGood_iff {g : Group} :
    stagedGroupGood g = true ↔
      g.valid = false ∨ (16 ≤ g.exp.toNat ∧ g.exp.toNat ≤ 32 ∧ g.base.toNat % 2 ^ g.exp.toNat = 0) := by
  simp [stagedGroupGood, AddrRange.aligned, Group.extent, and_assoc]

/-- R7 check 2: a slot of the group is not INVALID. -/
theorem groupInUse_iff {s : State} {g : GroupId} :
    ((slotsOf g).any fun r => (s.region r).state != .invalid) = true ↔
      ∃ r : RegionId, groupOf r = g ∧ (s.region r).state ≠ .invalid := by
  simp only [List.any_eq_true, mem_slotsOf, bne_iff_ne]

theorem groupOverlaps_iff {m : MapUnit} {g : GroupId} {staged : Group} :
    m.groupOverlaps g staged = true ↔
      staged.valid = true ∧ ∃ h : GroupId, h ≠ g ∧ (m.groups[h]).valid = true ∧
        (m.groups[h]).extent.overlaps staged.extent = true := by
  unfold MapUnit.groupOverlaps
  simp only [Bool.and_eq_true, List.any_eq_true, mem_allGroups, true_and, bne_iff_ne, and_assoc]

/-- R7: what a GROUP_SET whose record is stored has shown. -/
theorem checkGroupSet_ok {s : State} {g : GroupId} (h : s.checkGroupSet g = .ok) :
    stagedGroupGood (stagedGroup s.mgp.groupStage) = true ∧ (∀ r : RegionId, groupOf r = g → (s.region r).state = .invalid) ∧
    s.mu.groupOverlaps g (stagedGroup s.mgp.groupStage) = false := by
  unfold State.checkGroupSet at h
  dsimp only at h
  split at h
  · cases h
  next hgood =>
  split at h
  · cases h
  next hused =>
  split at h
  · cases h
  next hover =>
  rw [groupInUse_iff] at hused
  refine ⟨by simpa using hgood, fun r hr => ?_, by simpa using hover⟩
  by_contra hi
  exact hused ⟨r, hr, hi⟩

/-! ## REGION_COMMIT (R16, R17) -/

theorem inUse_iff {s : State} {r : RegionId} :
    s.inUse r = true ↔ (∃ id : LeaseId, (s.lease id).live = true ∧ (s.lease id).region = r) ∨
      (∃ w ∈ s.le.waiters, w.region = r) ∨ 0 < (s.region r).inFlight := by
  unfold State.inUse
  simp only [Bool.or_eq_true, List.any_eq_true, mem_allLeases, true_and, Bool.and_eq_true, beq_iff_eq, decide_eq_true_eq,
    or_assoc]

theorem fixedFieldsDiffer_iff {staged old : Region} :
    fixedFieldsDiffer staged old = true ↔
      ¬(staged.offset = old.offset ∧ staged.exp = old.exp ∧ staged.cycle.target = old.cycle.target ∧
        staged.cycle.width = old.cycle.width ∧ staged.rights = old.rights ∧ staged.policy = old.policy ∧
        staged.term = old.term) := by
  unfold fixedFieldsDiffer
  simp only [Bool.or_eq_true, bne_iff_ne]
  tauto

theorem shadowsLease_iff {s : State} {r : RegionId} {q : AddrRange} :
    s.shadowsLease r q = true ↔
      (∃ id : LeaseId, (s.lease id).live = true ∧ (r < (s.lease id).region ∧ groupOf (s.lease id).region = groupOf r) ∧
        (s.lease id).range.overlaps q = true) ∨
      ∃ w ∈ s.le.waiters, (r < w.region ∧ groupOf w.region = groupOf r) ∧ w.range.overlaps q = true := by
  unfold State.shadowsLease
  simp only [Bool.or_eq_true, List.any_eq_true, mem_allLeases, true_and, Bool.and_eq_true, beq_iff_eq, decide_eq_true_eq,
    and_assoc]

theorem fitsGroup_iff {g : Group} {d : Region} :
    fitsGroup g d = true ↔ g.valid = true ∧ 8 ≤ d.exp.toNat ∧ d.exp.toNat ≤ g.exp.toNat ∧
      d.offset.toNat % 2 ^ d.exp.toNat = 0 ∧ d.offset.toNat + 2 ^ d.exp.toNat ≤ 2 ^ g.exp.toNat := by
  simp [fitsGroup, and_assoc]

/-- R17 checks 1 and 2: the slot takes no descriptor: it is RETIRING, or INVALID in a group that is not VALID. -/
abbrev CommitWrong (s : State) (r : RegionId) : Prop :=
  (s.region r).state = .retiring ∨ ((s.region r).state = .invalid ∧ (s.mu.groups[groupOf r]).valid = false)

/-- R9, R17: the descriptor in the staging words, of whichever slot. -/
def State.stagedDescriptor (s : State) : Option Region :=
  stagedRegion s.mgp.regionStage[0] s.mgp.regionStage[1] s.mgp.regionStage[2]

/-- R17 check 5. -/
abbrev CommitInUse (s : State) (r : RegionId) (d : Region) : Prop :=
  (s.region r).state ≠ .invalid ∧ s.inUse r = true ∧ fixedFieldsDiffer d (s.region r) = true

theorem checkCommit_of_wrong {s : State} {r : RegionId} (h : CommitWrong s r) : s.checkCommit r = .error .wrongState := by
  unfold State.checkCommit
  dsimp only
  rcases h with h | h
  · rw [if_pos h]
  · rw [if_neg (by rw [h.1]; decide), if_pos h]

/-- R17: the checks after the slot's own. -/
theorem checkCommit_of_not_wrong {s : State} {r : RegionId} (h : ¬CommitWrong s r) :
    s.checkCommit r =
      match s.stagedDescriptor with
      | none => .error .badArg
      | some d =>
        if fitsGroup s.mu.groups[groupOf r] d = false then .error .badArg
        else if CommitInUse s r d then .error .inUse
        else if s.shadowsLease r (d.extent s.mu.groups[groupOf r]) then .error .shadowsLease
        else .ok d := by
  obtain ⟨hr, hi⟩ := not_or.mp h
  unfold State.checkCommit
  dsimp only
  rw [if_neg hr, if_neg hi]
  rfl

theorem checkCommit_of_unfit {s : State} {r : RegionId} (h : ¬CommitWrong s r)
    (hf : ∀ d, s.stagedDescriptor = some d → fitsGroup s.mu.groups[groupOf r] d = false) :
    s.checkCommit r = .error .badArg := by
  rw [checkCommit_of_not_wrong h]
  cases hd : s.stagedDescriptor with
  | none => rfl
  | some d => exact if_pos (hf d hd)

theorem checkCommit_of_fits {s : State} {r : RegionId} {d : Region} (h : ¬CommitWrong s r) (hd : s.stagedDescriptor = some d)
    (hf : fitsGroup s.mu.groups[groupOf r] d = true) :
    s.checkCommit r =
      if CommitInUse s r d then .error .inUse
      else if s.shadowsLease r (d.extent s.mu.groups[groupOf r]) then .error .shadowsLease
      else .ok d := by
  rw [checkCommit_of_not_wrong h, hd]
  exact if_neg (by rw [hf]; decide)

/-- R17: what a REGION_COMMIT whose descriptor is installed has shown. -/
theorem checkCommit_ok {s : State} {r : RegionId} {d : Region} (h : s.checkCommit r = .ok d) :
    ¬CommitWrong s r ∧ fitsGroup s.mu.groups[groupOf r] d = true ∧ ¬CommitInUse s r d ∧
    s.shadowsLease r (d.extent s.mu.groups[groupOf r]) = false := by
  by_cases hw : CommitWrong s r
  · rw [checkCommit_of_wrong hw] at h
    cases h
  by_cases hf : ∀ d, s.stagedDescriptor = some d → fitsGroup s.mu.groups[groupOf r] d = false
  · rw [checkCommit_of_unfit hw hf] at h
    cases h
  push Not at hf
  obtain ⟨d', hd, hfit⟩ := hf
  have hfit : fitsGroup s.mu.groups[groupOf r] d' = true := by simpa using hfit
  rw [checkCommit_of_fits hw hd hfit] at h
  split at h
  · cases h
  next hu =>
  split at h
  · cases h
  next hs =>
  cases h
  exact ⟨hw, hfit, hu, by simpa using hs⟩

/-! ## The staging words (R9, Table 10-9) -/

theorem PortWidth.ofCode_eq_some_iff {n : Nat} {x : PortWidth} : PortWidth.ofCode n = some x ↔ x.code = n := by
  unfold PortWidth.ofCode
  split <;> cases x <;> simp_all [PortWidth.code, eq_comm]

theorem Policy.ofCode_eq_some_iff {n : Nat} {x : Policy} : Policy.ofCode n = some x ↔ x.code = n := by
  unfold Policy.ofCode
  split <;> cases x <;> simp_all [Policy.code, eq_comm]

theorem Rights.ofCode_eq_some_iff {n : Nat} {x : Rights} : Rights.ofCode n = some x ↔ x.code = n := by
  unfold Rights.ofCode
  split <;> cases x <;> simp_all [Rights.code, eq_comm]

theorem field_lt (w : Word) (lo len : Nat) : field w lo len < 2 ^ len := BitVec.isLt _

theorem field_one (w : Word) (lo : Nat) : field w lo 1 = (w.getLsbD lo).toNat := by
  apply Nat.eq_of_testBit_eq
  intro i
  rw [field, ← BitVec.getLsbD, BitVec.getLsbD_extractLsb']
  cases i with
  | zero => cases w.getLsbD lo <;> rfl
  | succ i => cases w.getLsbD lo <;> simp [Nat.testBit_succ]

/-- Table 10-1: every value of these fields below 3 is defined. -/
theorem ofCode_isSome : ∀ n < 3,
    (PortWidth.ofCode n).isSome = true ∧ (Policy.ofCode n).isSome = true ∧ (Rights.ofCode n).isSome = true := by decide

theorem PortWidth.code_ne_three (x : PortWidth) : x.code ≠ 3 := by cases x <;> decide

theorem Policy.code_ne_three (x : Policy) : x.code ≠ 3 := by cases x <;> decide

theorem Rights.code_ne_three (x : Rights) : x.code ≠ 3 := by cases x <;> decide

/-- R9, Table 10-9: the staging words hold a descriptor, and which. -/
theorem stagedRegion_some {w0 w1 w2 : Word} {d : Region} (h : stagedRegion w0 w1 w2 = some d) :
    Describes w0 w1 w2 d ∧ ¬Undescribed w1 w2 := by
  unfold stagedRegion at h
  split at h
  · next width policy r0 r1 r2 r3 hw hp h0 h1 h2 h3 =>
    split at h
    · next hrange =>
      cases h
      rw [PortWidth.ofCode_eq_some_iff] at hw
      rw [Policy.ofCode_eq_some_iff] at hp
      rw [Rights.ofCode_eq_some_iff] at h0 h1 h2 h3
      have rights : ∀ p : PortId, ((#v[r0, r1, r2, r3])[p]).code = field w1 (24 + 2 * p.val) 2 := by
        intro p
        fin_cases p
        · exact h0
        · exact h1
        · exact h2
        · exact h3
      have ready : (if w1.getLsbD 12 then ReadyMode.external else .internal).code = field w1 12 1 := by
        rw [field_one]
        cases w1.getLsbD 12 <;> rfl
      refine ⟨⟨⟨rfl, rfl⟩, ⟨rfl, hw, rfl, ready, hp, rights⟩, rfl, rfl, rfl, rfl⟩, ?_⟩
      rintro (h | h | ⟨p, h⟩ | h)
      · exact width.code_ne_three (hw.trans h)
      · exact policy.code_ne_three (hp.trans h)
      · exact Rights.code_ne_three _ ((rights p).trans h)
      · omega
    · cases h
  · cases h

/-- R9, Table 10-9: words whose fields are all defined and in range hold a descriptor. -/
theorem stagedRegion_of_described {w0 w1 w2 : Word} (h : ¬Undescribed w1 w2) : ∃ d, stagedRegion w0 w1 w2 = some d := by
  simp only [Undescribed, not_or, not_exists] at h
  obtain ⟨hw, hp, hr, hterm, hshare, hshare4, hlimit⟩ := h
  have below : ∀ lo, field w1 lo 2 ≠ 3 → field w1 lo 2 < 3 := fun lo h3 => by
    have : field w1 lo 2 < 4 := field_lt w1 lo 2
    omega
  obtain ⟨width, hw⟩ := Option.isSome_iff_exists.mp (ofCode_isSome _ (below _ hw)).1
  obtain ⟨policy, hp⟩ := Option.isSome_iff_exists.mp (ofCode_isSome _ (below _ hp)).2.1
  have rights : ∀ p : PortId, ∃ x, Rights.ofCode (field w1 (24 + 2 * p.val) 2) = some x :=
    fun p => Option.isSome_iff_exists.mp (ofCode_isSome _ (below _ (hr p))).2.2
  obtain ⟨r0, h0⟩ := rights 0
  obtain ⟨r1, h1⟩ := rights 1
  obtain ⟨r2, h2⟩ := rights 2
  obtain ⟨r3, h3⟩ := rights 3
  have inRange : 1 ≤ field w2 0 16 ∧ 1 ≤ field w2 16 3 ∧ field w2 16 3 ≤ 4 ∧ 1 ≤ field w2 20 4 := by omega
  unfold stagedRegion
  rw [hw, hp, show field w1 24 2 = field w1 (24 + 2 * (0 : PortId).val) 2 from rfl, h0,
    show field w1 26 2 = field w1 (24 + 2 * (1 : PortId).val) 2 from rfl, h1,
    show field w1 28 2 = field w1 (24 + 2 * (2 : PortId).val) 2 from rfl, h2,
    show field w1 30 2 = field w1 (24 + 2 * (3 : PortId).val) 2 from rfl, h3]
  exact ⟨_, if_pos inRange⟩

theorem stagedRegion_eq_none_iff {w0 w1 w2 : Word} : stagedRegion w0 w1 w2 = none ↔ Undescribed w1 w2 := by
  constructor
  · intro h
    by_contra hd
    obtain ⟨d, hs⟩ := stagedRegion_of_described (w0 := w0) hd
    rw [hs] at h
    cases h
  · intro h
    cases hs : stagedRegion w0 w1 w2 with
    | none => rfl
    | some d => exact absurd h (stagedRegion_some hs).2

end Sys2Proof.Machine
end

section
/-! The host commands of the Map Unit (chapter 1): GO_LIVE, GROUP_SET, REGION_COMMIT, REGION_SUSPEND and REGION_RESUME. -/

namespace Sys2Proof.Machine

open Sys2Proof.Safety Sys2Proof.Claims

/-- Settles O33, by the one test GO_LIVE makes. -/
theorem goLiveStartsTheMap : Obligations.GoLiveStartsTheMap := by
  intro s hu
  have taken : exec .goLive s = .next (s.takeCode 1#4).hostGoLive := congrArg _ (hostCommand_of_idle hu 1#4)
  rw [taken]
  unfold State.hostGoLive
  constructor
  · intro hb
    have hlive : (s.takeCode 1#4).mu.map ≠ .live := by
      change s.mu.map ≠ .live
      rw [hb]
      decide
    rw [if_neg hlive]
    rfl
  · intro hl
    rw [if_pos (by exact hl)]
    rfl

/-- Settles O34: the three checks in the rule's words, in order. -/
theorem groupSetStoresTheStagedGroup : Obligations.GroupSetStoresTheStagedGroup := by
  intro s hu
  have taken : exec .groupSet s = .next ((s.takeCode 2#4).hostGroupSet s.mgp.hostArg) :=
    congrArg _ (hostCommand_of_idle hu 2#4)
  rw [taken]
  unfold State.hostGroupSet
  constructor
  · intro hlarge
    rw [argFin_of_le hlarge]
    rfl
  intro g hg
  dsimp only
  rw [argFin_of_eq hg]
  dsimp only
  have good := stagedGroupGood_iff (g := stagedGroup s.mgp.groupStage)
  have used := groupInUse_iff (s := s) (g := g)
  have overlap := groupOverlaps_iff (m := s.mu) (g := g) (staged := stagedGroup s.mgp.groupStage)
  have check : (s.takeCode 2#4).checkGroupSet g =
      if stagedGroupGood (stagedGroup s.mgp.groupStage) = false then .badArg
      else if (slotsOf g).any fun r => (s.region r).state != .invalid then .inUse
      else if s.mu.groupOverlaps g (stagedGroup s.mgp.groupStage) then .overlap
      else .ok := rfl
  refine ⟨fun hbad => ?_, fun hgood hused => ?_, fun hgood hused hover => ?_, fun hgood hused hover => ?_⟩
  · rw [check, if_pos (Bool.eq_false_of_not_eq_true fun h => hbad (good.mp h))]
    rfl
  all_goals rw [check, if_neg (by rw [good.mpr hgood]; decide)]
  · rw [if_pos (used.mpr hused)]
    rfl
  all_goals rw [if_neg fun h => hused (used.mp h)]
  · rw [if_pos (overlap.mpr hover)]
    rfl
  · rw [if_neg fun h => hover (overlap.mp h)]
    rfl

/-- Settles O35: the staging words field by field, then the checks in order. -/
theorem regionCommitInstalls : Obligations.RegionCommitInstalls := by
  intro s r hu hr
  have taken : exec .regionCommit s = .next ((s.takeCode 3#4).hostRegionCommit s.mgp.hostArg) :=
    congrArg _ (hostCommand_of_idle hu 3#4)
  have refused : ∀ {result : HostResult}, s.checkCommit r = .error result →
      exec .regionCommit s = .next { s with mgp := Completed 3#4 result s.mgp } := by
    intro result h
    rw [taken]
    unfold State.hostRegionCommit
    rw [argFin_of_eq hr]
    dsimp only
    rw [show (s.takeCode 3#4).checkCommit r = s.checkCommit r from rfl, h]
    rfl
  have stored : ∀ {d : Region}, s.checkCommit r = .ok d →
      exec .regionCommit s =
        .next { s with mu := { s.mu with regions := s.mu.regions.set r (installed (s.region r) d) }
                       mgp := Completed 3#4 .ok s.mgp } := by
    intro d h
    rw [taken]
    unfold State.hostRegionCommit
    rw [argFin_of_eq hr]
    dsimp only
    rw [show (s.takeCode 3#4).checkCommit r = s.checkCommit r from rfl, h]
    rfl
  refine ⟨stagedRegion_eq_none_iff, fun d hd => ⟨(stagedRegion_some hd).1, fitsGroup_iff⟩,
    fun h => refused (checkCommit_of_wrong h), fun h hf => refused (checkCommit_of_unfit h hf), ?_⟩
  intro h d hd hf
  have check := checkCommit_of_fits h hd hf
  have inUse : CommitInUse s r d ↔ _ := and_congr_right fun _ => and_congr inUse_iff fixedFieldsDiffer_iff
  dsimp only
  refine ⟨fun hused => refused ?_, fun hused hshadow => refused ?_, fun hused hshadow => stored ?_⟩
  · rw [check, if_pos (inUse.mpr hused)]
  all_goals rw [check, if_neg fun k => hused (inUse.mp k)]
  · rw [if_pos (shadowsLease_iff.mpr hshadow)]
  · rw [if_neg fun k => hshadow (shadowsLease_iff.mp k)]

/-- Settles O36: each command is decided by the one state it asks for, and a scan by its count. -/
theorem suspendAndResume : Obligations.SuspendAndResume := by
  intro s r
  refine ⟨fun hu hr => ?_, fun h => congrArg _ (if_pos h), fun n h => ?_⟩
  · have suspend : exec .regionSuspend s = .next ((s.takeCode 4#4).hostRegionSuspend s.mgp.hostArg) :=
      congrArg _ (hostCommand_of_idle hu 4#4)
    have resume : exec .regionResume s = .next ((s.takeCode 5#4).hostRegionResume s.mgp.hostArg) :=
      congrArg _ (hostCommand_of_idle hu 5#4)
    rw [suspend, resume]
    unfold State.hostRegionSuspend State.hostRegionResume
    rw [argFin_of_eq hr]
    dsimp only
    refine ⟨fun h => ?_, fun h => ?_, fun h => ?_, fun h => ?_⟩
    · rw [if_pos (by exact h)]
      rfl
    · rw [if_neg (by exact h)]
      rfl
    · rw [if_pos (by exact h)]
      rfl
    · rw [if_neg (by exact h)]
      rfl
  · have asked : s.resumeScan = State.grantScan { s with le := { s.le with resumeScans := n } } := by
      unfold State.resumeScan
      rw [if_neg (by rw [h]; exact Nat.succ_ne_zero n), h]
      rfl
    exact congrArg _ asked

end Sys2Proof.Machine
end

section
/-! SUPPORT. What a move leaves of one lease, of the waiters and of the map: the facts the laws of the map and of the lease
records are proved from, move by move. -/

namespace Sys2Proof.Machine

open Sys2Proof.Safety Sys2Proof.Claims

/-! ## Leases -/

theorem lease_foldl_revoke {x : RevokeReason} (hx : x ≠ .silent) (which : Lease → Bool) (id : LeaseId) {l : List LeaseId}
    (hn : l.Nodup) (s : State) :
    (l.foldl (fun s id => if which (s.lease id) then s.revoke x id else s) s).lease id =
      if id ∈ l ∧ (s.lease id).state = .held ∧ which (s.lease id) = true then Revoked x (s.lease id) else s.lease id := by
  have revoked : ∀ t : State, (t.lease id).state = .held → (t.revoke x id).lease id = Revoked x (t.lease id) :=
    fun t h => lease_revoke_self h hx
  induction l generalizing s with
  | nil => simp
  | cons j l ih =>
    obtain ⟨hj, hn⟩ := List.nodup_cons.mp hn
    rw [List.foldl_cons, ih hn]
    by_cases e : id = j
    · subst e
      by_cases hw : which (s.lease id) = true <;> by_cases hh : (s.lease id).state = .held <;>
        simp [hj, hw, hh, revoked s, revoke_of_ne_held]
    · have same : (if which (s.lease j) then s.revoke x j else s).lease id = s.lease id := by
        split
        · exact lease_revoke_ne x s (Ne.symm e)
        · rfl
      rw [same]
      simp [e]

/-- R73: what a revocation of all that `which` names makes of each slot, for a reason that is not SILENT. -/
theorem lease_revokeAll {x : RevokeReason} (hx : x ≠ .silent) (which : Lease → Bool) (s : State) (id : LeaseId) :
    (s.revokeAll x which).lease id =
      if (s.lease id).state = .held ∧ which (s.lease id) = true then Revoked x (s.lease id) else s.lease id := by
  rw [State.revokeAll, lease_foldl_revoke (l := allLeases) hx which id (List.nodup_finRange 64)]
  simp only [mem_allLeases, true_and]

@[simp] theorem setRetiring_region (r : RegionId) (s : State) (k : RegionId) :
    (s.setRetiring r).region k = if r = k then { s.region k with state := .retiring } else s.region k :=
  region_updRegion s r (fun d => { d with state := .retiring }) k

@[simp] theorem setRetiring_lease (r : RegionId) (s : State) (id : LeaseId) : (s.setRetiring r).lease id = s.lease id := rfl

/-- R22: the leases as a retirement starts. -/
theorem lease_beginRetire (r : RegionId) (s : State) (id : LeaseId) :
    (s.beginRetire r).lease id =
      if (s.lease id).state = .held ∧ (s.lease id).region = r then Revoked .regionRetired (s.lease id)
      else s.lease id := by
  rw [State.beginRetire, lease_dropWaiters, lease_revokeAll (by decide)]
  simp only [beq_iff_eq, setRetiring_lease]

/-- R73: a revocation changes nothing, or writes one lease record. -/
theorem revoke_eq (x : RevokeReason) (id : LeaseId) (s : State) :
    s.revoke x id = s ∨ ∃ l, s.revoke x id = s.putLease id l := by
  unfold State.revoke
  dsimp only
  split
  · exact .inl rfl
  split
  · exact .inr ⟨_, rfl⟩
  split
  · exact .inr ⟨_, rfl⟩
  · exact .inr ⟨_, rfl⟩

/-- What every write of a lease record leaves, a revocation of all that `which` names leaves. -/
theorem revokeAll_keeps {α : Type} (part : State → α) (h : ∀ id l s, part (s.putLease id l) = part s) (x : RevokeReason)
    (which : Lease → Bool) (s : State) : part (s.revokeAll x which) = part s := by
  have one : ∀ id s, part (s.revoke x id) = part s := fun id s => by
    rcases revoke_eq x id s with k | ⟨l, k⟩
    · rw [k]
    · rw [k, h]
  unfold State.revokeAll
  generalize allLeases = ids
  induction ids generalizing s with
  | nil => rfl
  | cons id ids ih =>
    rw [List.foldl_cons, ih]
    split
    · exact one id s
    · rfl

theorem waiters_revokeAll (x : RevokeReason) (which : Lease → Bool) (s : State) :
    (s.revokeAll x which).le.waiters = s.le.waiters :=
  revokeAll_keeps (·.le.waiters) waiters_putLease x which s

theorem waiters_beginRetire (r : RegionId) (s : State) :
    (s.beginRetire r).le.waiters = s.le.waiters.filter fun w => !(w.region == r) := by
  rw [State.beginRetire, waiters_dropWaiters, waiters_revokeAll]
  rfl

theorem beginRetire_leaseWork (r : RegionId) (s : State) : LeaseWork (s.setRetiring r) (s.beginRetire r) :=
  (revokeAll_leaseWork _ _ _).trans (dropWaiters_leaseWork _ _ _)

theorem region_beginRetire (r : RegionId) (s : State) (k : RegionId) :
    (s.beginRetire r).region k = if r = k then { s.region k with state := .retiring } else s.region k := by
  rw [(beginRetire_leaseWork r s).region, setRetiring_region]

theorem unit_beginRetire (r : RegionId) (s : State) : (s.beginRetire r).mgp.unit = .retiring r := by
  rw [(beginRetire_leaseWork r s).mgp]
  rfl

/-- A revocation is one of the things a record can become. -/
theorem Becomes.of_revoked (s : State) (id : LeaseId) (x : RevokeReason) (h : (s.lease id).state = .held) :
    Becomes s id (Revoked x (s.lease id)) := by
  unfold Revoked
  split
  · exact .draining x _ (.inl h)
  · exact .revoked x h

@[simp] theorem lease_completeSoftReset (s : State) (id : LeaseId) :
    s.completeSoftReset.lease id = Lease.freeWith (s.lease id).generation :=
  mapTable_get _ _ id

@[simp] theorem region_completeSoftReset (s : State) (r : RegionId) :
    s.completeSoftReset.region r = { s.region r with inFlight := 0 } :=
  mapTable_get _ _ r

@[simp] theorem lease_hardwareReset (s : State) (id : LeaseId) : s.hardwareReset.lease id = Lease.freeWith 0#4 :=
  Vector.getElem_replicate id.isLt

@[simp] theorem region_hardwareReset (s : State) (r : RegionId) : s.hardwareReset.region r = Region.reset :=
  Vector.getElem_replicate r.isLt

/-- A move makes of every lease what the Lease Engine can make of it, or frees it in a reset. -/
theorem Move.lease {s t : State} (m : Move s t) (id : LeaseId) :
    Becomes s id (t.lease id) ∨ ∃ gen, t.lease id = Lease.freeWith gen := by
  cases m with
  | served h => exact .inl (h.lease id)
  | hardwareReset => exact .inr ⟨_, lease_hardwareReset s id⟩
  | softReset _ => exact .inr ⟨_, lease_completeSoftReset s id⟩
  | beginRetire r _ _ =>
    rw [lease_beginRetire]
    split
    · next h => exact .inl (.of_revoked s id _ h.1)
    · exact .inl .kept
  | windowBase _ _ => exact .inl .kept
  | goLive _ => exact .inl .kept
  | groupSet _ _ => exact .inl .kept
  | commit _ _ _ => exact .inl .kept
  | suspendOrResume _ _ _ _ => exact .inl .kept
  | count _ _ _ => exact .inl .kept
  | retired _ _ => exact .inl .kept
  | beginSoftReset _ => exact .inl .kept

/-- After a move every waiter asks for what waited, or was just checked, before it. -/
theorem Move.waiters {s t : State} (m : Move s t) {w : Waiter} (hw : w ∈ t.le.waiters) : Claimed s w := by
  cases m with
  | served h => exact h.waiters w hw
  | hardwareReset => cases hw
  | softReset _ => cases hw
  | beginRetire r _ _ =>
    rw [waiters_beginRetire] at hw
    exact .waiting (List.mem_of_mem_filter hw)
  | windowBase _ _ => exact .waiting hw
  | goLive _ => exact .waiting hw
  | groupSet _ _ => exact .waiting hw
  | commit _ _ _ => exact .waiting hw
  | suspendOrResume _ _ _ _ => exact .waiting hw
  | count _ _ _ => exact .waiting hw
  | retired _ _ => exact .waiting hw
  | beginSoftReset _ => exact .waiting hw

/-! ## The lease records (Table 3-1) -/

theorem leaseShape_freeWith (gen : Generation) : LeaseShape (Lease.freeWith gen) := by
  simp [LeaseShape, Lease.freeWith]

/-- R49, R53: every change of a record keeps its shape. -/
theorem Becomes.shape {s : State} {id : LeaseId} {l : Lease} (h : Becomes s id l) (hs : LeaseShape (s.lease id)) :
    LeaseShape l := by
  obtain ⟨hr, hd, hf⟩ := hs
  cases h with
  | kept => exact ⟨hr, hd, hf⟩
  | freed => exact leaseShape_freeWith _
  | counted _ _ _ h => simp_all [LeaseShape]
  | upgraded h _ => simp_all [LeaseShape]
  | downgraded h _ => simp_all [LeaseShape]
  | revoked x h => simp_all [LeaseShape]
  | draining x e h => simp [LeaseShape]
  | drained h => simp_all [LeaseShape]
  | granted w h _ => simp [LeaseShape, GrantRecord]

theorem Move.leasesShaped {s t : State} (m : Move s t) (h : LeasesShaped s) : LeasesShaped t := by
  intro id
  rcases m.lease id with hb | ⟨gen, hf⟩
  · exact hb.shape (h id)
  · rw [hf]
    exact leaseShape_freeWith gen

/-! ## The Lease Table in BOOT (R3) -/

/-- While the map is BOOT nothing is claimed but by a waiter. -/
theorem Claimed.of_boot {s : State} {w : Waiter} (hb : s.mu.map = .boot) (h : Claimed s w) : s.le.waiters ≠ [] := by
  rcases h with hc | ⟨v, hv, _⟩
  · have := hc.range
    rw [decodeRange_of_boot hb] at this
    cases this
  · exact List.ne_nil_of_mem hv

theorem Becomes.free {s : State} {id : LeaseId} {l : Lease} (h : Becomes s id l) (hf : (s.lease id).state = .free)
    (hn : ∀ w, ¬Claimed s w) : l.state = .free := by
  cases h with
  | kept => exact hf
  | freed => rfl
  | counted _ _ _ h => exact hf
  | upgraded h _ => exact hf
  | downgraded h _ => exact hf
  | revoked x h => simp [hf] at h
  | draining x e h => simp [hf] at h
  | drained h => simp [hf] at h
  | granted w _ hw => exact absurd hw (hn w)

/-- R1, R2: only a hardware reset makes the map BOOT. -/
theorem Move.of_boot {s t : State} (m : Move s t) (hb : t.mu.map = .boot) :
    s.mu.map = .boot ∨ (t.le.waiters = [] ∧ ∀ id : LeaseId, (t.lease id).state = .free) := by
  cases m with
  | served h => exact .inl (h.mu ▸ hb)
  | hardwareReset => exact .inr ⟨rfl, fun id => by rw [lease_hardwareReset]; rfl⟩
  | goLive h => exact .inl h
  | beginRetire r _ _ => exact .inl (by rw [(beginRetire_leaseWork r s).mu] at hb; exact hb)
  | windowBase _ _ => exact .inl hb
  | groupSet _ _ => exact .inl hb
  | commit _ _ _ => exact .inl hb
  | suspendOrResume _ _ _ _ => exact .inl hb
  | count _ _ _ => exact .inl hb
  | retired _ _ => exact .inl hb
  | beginSoftReset _ => exact .inl hb
  | softReset _ => exact .inl hb

theorem Move.bootIsEmpty {s t : State} (m : Move s t) (h : BootIsEmpty s) : BootIsEmpty t := by
  intro hb
  rcases m.of_boot hb with hs | done
  · obtain ⟨hw, hf⟩ := h hs
    have none : ∀ w, ¬Claimed s w := fun w hc => hc.of_boot hs hw
    refine ⟨List.eq_nil_iff_forall_not_mem.mpr fun w hm => none w (m.waiters hm), fun id => ?_⟩
    rcases m.lease id with hl | ⟨gen, hl⟩
    · exact hl.free (hf id) none
    · rw [hl]
      rfl
  · exact done

/-! ## The window (R4) -/

theorem windowBase_masked (v : Word) : (v &&& 0xFFFFF000#32) &&& 0xFFF#32 = 0#32 := by
  rw [BitVec.and_assoc, show (0xFFFFF000#32 &&& 0xFFF#32 : Word) = 0#32 by decide, BitVec.and_zero]

theorem Move.windowAligned {s t : State} (m : Move s t) (h : WindowAligned s) : WindowAligned t := by
  cases m with
  | served hs => rw [WindowAligned, hs.mu]; exact h
  | hardwareReset =>
    change Config.windowBaseReset &&& 0xFFF#32 = 0#32
    decide
  | windowBase v _ => exact windowBase_masked v
  | beginRetire r _ _ => rw [WindowAligned, (beginRetire_leaseWork r s).mu]; exact h
  | goLive _ => exact h
  | groupSet _ _ => exact h
  | commit _ _ _ => exact h
  | suspendOrResume _ _ _ _ => exact h
  | count _ _ _ => exact h
  | retired _ _ => exact h
  | beginSoftReset _ => exact h
  | softReset _ => exact h

/-! ## The unit and its retirement (R22, R23) -/

/-- The law speaks of the slots' RETIRING state and of the unit. -/
theorem retireAgrees_of_eq {s t : State} (h : RetireAgrees s) (hu : t.mgp.unit = s.mgp.unit)
    (hr : ∀ r : RegionId, (t.region r).state = .retiring ↔ (s.region r).state = .retiring) : RetireAgrees t := by
  intro r
  rw [hr, hu]
  exact h r

/-- With the unit not at a retirement no slot is RETIRING. -/
theorem not_retiring_of_unit {s : State} (h : RetireAgrees s) (hu : ∀ r, s.mgp.unit ≠ .retiring r) (r : RegionId) :
    (s.region r).state ≠ .retiring :=
  fun hr => hu r ((h r).mp hr)

theorem retireDone_iff {s : State} {r : RegionId} :
    s.retireDone r = true ↔ (s.region r).state = .retiring ∧ (s.region r).inFlight = 0 ∧
      ∀ id : LeaseId, ¬((s.lease id).state = .draining ∧ (s.lease id).region = r) := by
  unfold State.retireDone
  simp only [Bool.and_eq_true, beq_iff_eq, List.all_eq_true, mem_allLeases, forall_const, Bool.not_eq_true', and_assoc,
    Bool.and_eq_false_iff, beq_eq_false_iff_ne, not_and_or, ne_eq]

theorem Move.retireAgrees {s t : State} (m : Move s t) (h : RetireAgrees s) : RetireAgrees t := by
  cases m with
  | served hs => exact retireAgrees_of_eq h hs.unit fun r => by unfold State.region; rw [hs.mu]
  | hardwareReset =>
    intro r
    rw [region_hardwareReset]
    simp [Region.reset, State.hardwareReset, Management.reset]
  | windowBase _ _ => exact h
  | goLive _ => exact h
  | groupSet _ _ => exact h
  | count r n _ =>
    refine retireAgrees_of_eq h rfl fun k => ?_
    rw [region_updRegion]
    split <;> rfl
  | commit r d hc =>
    obtain ⟨hw, _⟩ := checkCommit_ok hc
    refine retireAgrees_of_eq h rfl fun k => ?_
    rw [region_updRegion]
    split
    · next e =>
      subst e
      have hn : (s.region r).state ≠ .retiring := fun hr => hw (.inl hr)
      simp only [installed, hn, iff_false]
      split
      · decide
      · exact hn
    · rfl
  | suspendOrResume r x hx hr =>
    refine retireAgrees_of_eq h rfl fun k => ?_
    rw [region_updRegion]
    split
    · next e =>
      subst e
      rcases hx with rfl | rfl <;> rcases hr with hr | hr <;> simp [hr]
    · rfl
  | beginRetire r hu hr =>
    intro k
    rw [region_beginRetire, unit_beginRetire]
    by_cases e : r = k
    · simp [e]
    · simp [e, not_retiring_of_unit h (by simp [hu]) k]
  | retired r hd =>
    intro k
    have unit : s.mgp.unit = .retiring r := (h r).mp (retireDone_iff.mp hd).1
    rw [finish_region, region_updRegion, finish_mgp_unit]
    by_cases e : r = k
    · simp [e]
    · have : (s.region k).state ≠ .retiring := fun hk => e (by simpa [unit] using (h k).mp hk)
      simp [e, this]
  | beginSoftReset hu =>
    intro k
    have := not_retiring_of_unit h (by simp [hu]) k
    exact ⟨fun hk => absurd hk this, nofun⟩
  | softReset hu =>
    intro k
    have := not_retiring_of_unit h (by simp [hu]) k
    rw [region_completeSoftReset]
    exact ⟨fun hk => absurd hk this, nofun⟩

/-! ## Groups and slots (R6, R7, R9) -/

/-- The law speaks of the groups and of the extents of the slots that are not INVALID. -/
theorem mapFits_of_eq {s t : State} (h : MapFits s) (hg : t.mu.groups = s.mu.groups)
    (hr : ∀ r : RegionId, (t.region r).state ≠ .invalid →
      (s.region r).state ≠ .invalid ∧ (t.region r).offset = (s.region r).offset ∧ (t.region r).exp = (s.region r).exp) :
    MapFits t := by
  obtain ⟨good, disjoint, fits⟩ := h
  refine ⟨by rw [hg]; exact good, by rw [hg]; exact disjoint, fun r hi => ?_⟩
  obtain ⟨hs, ho, he⟩ := hr r hi
  have := fits r hs
  rw [fitsGroup_iff] at this ⊢
  rw [hg, ho, he]
  exact this

/-- R7: a stored group is well formed, empty, and clear of every other VALID group. -/
theorem mapFits_groupSet {s : State} {g : GroupId} (h : MapFits s) (hc : s.checkGroupSet g = .ok) :
    MapFits { s with mu := { s.mu with groups := s.mu.groups.set g (stagedGroup s.mgp.groupStage) } } := by
  obtain ⟨good, disjoint, fits⟩ := h
  obtain ⟨stagedGood, noSlots, clear⟩ := checkGroupSet_ok hc
  have clearOf : ∀ k : GroupId, k ≠ g → (stagedGroup s.mgp.groupStage).valid = true → (s.mu.groups[k]).valid = true →
      (s.mu.groups[k]).extent.overlaps (stagedGroup s.mgp.groupStage).extent = false := by
    intro k hk hs hv
    by_contra ho
    have := groupOverlaps_iff.mpr ⟨hs, k, hk, hv, by simpa using ho⟩
    rw [clear] at this
    cases this
  refine ⟨fun k => ?_, fun i j hij => ?_, fun r hi => ?_⟩
  · simp only [vector_get_set]
    split
    · intro hv
      rcases stagedGroupGood_iff.mp stagedGood with hn | ⟨h16, h32, hal⟩
      · rw [hn] at hv
        cases hv
      · exact ⟨h16, h32, by simpa [AddrRange.aligned, Group.extent] using hal⟩
    · exact good k
  · simp only [vector_get_set]
    by_cases hi : g = i
    · rw [if_pos hi, if_neg fun e => hij (hi.symm.trans e)]
      intro hs hv
      rw [AddrRange.overlaps_comm]
      exact clearOf j (fun e => hij (hi.symm.trans e.symm)) hs hv
    · rw [if_neg hi]
      by_cases hj : g = j
      · rw [if_pos hj]
        intro hv hs
        exact clearOf i (Ne.symm hi) hs hv
      · rw [if_neg hj]
        exact disjoint i j hij
  · have hr : g ≠ groupOf r := fun e => hi (noSlots r e.symm)
    rw [vector_get_set, if_neg hr]
    exact fits r hi

theorem Move.mapFits {s t : State} (m : Move s t) (h : MapFits s) : MapFits t := by
  cases m with
  | served hs =>
    have hr : ∀ r, t.region r = s.region r := fun r => by unfold State.region; rw [hs.mu]
    exact mapFits_of_eq h (by rw [hs.mu]) fun r hi => ⟨hr r ▸ hi, by rw [hr], by rw [hr]⟩
  | hardwareReset =>
    have hg : ∀ g : GroupId, s.hardwareReset.mu.groups[g] = Group.reset := fun g => Vector.getElem_replicate g.isLt
    refine ⟨fun g hv => ?_, fun g _ _ hv => ?_, fun r hi => ?_⟩
    · rw [hg] at hv
      cases hv
    · rw [hg] at hv
      cases hv
    · rw [region_hardwareReset] at hi
      exact absurd rfl hi
  | groupSet g hc => exact mapFits_groupSet h hc
  | commit r d hc =>
    obtain ⟨good, disjoint, fits⟩ := h
    obtain ⟨_, hfit, _⟩ := checkCommit_ok hc
    refine ⟨good, disjoint, fun k => ?_⟩
    rw [region_updRegion, updRegion_mu_groups]
    split
    · next e =>
      subst e
      intro _
      rw [fitsGroup_iff] at hfit ⊢
      exact hfit
    · exact fits k
  | suspendOrResume r x hx hr =>
    refine mapFits_of_eq h rfl fun k => ?_
    rw [region_updRegion]
    split
    · next e =>
      subst e
      exact fun _ => ⟨by rcases hr with hr | hr <;> simp [hr], rfl, rfl⟩
    · exact fun hi => ⟨hi, rfl, rfl⟩
  | count r n _ =>
    refine mapFits_of_eq h rfl fun k => ?_
    rw [region_updRegion]
    split
    · exact fun hi => ⟨hi, rfl, rfl⟩
    · exact fun hi => ⟨hi, rfl, rfl⟩
  | beginRetire r _ hr =>
    refine mapFits_of_eq h (by rw [(beginRetire_leaseWork r s).mu]; rfl) fun k => ?_
    rw [region_beginRetire]
    split
    · next e =>
      subst e
      exact fun _ => ⟨by rcases hr with hr | hr <;> simp [hr], rfl, rfl⟩
    · exact fun hi => ⟨hi, rfl, rfl⟩
  | retired r _ =>
    refine mapFits_of_eq h rfl fun k => ?_
    rw [finish_region, region_updRegion]
    split
    · exact fun hi => absurd rfl hi
    · exact fun hi => ⟨hi, rfl, rfl⟩
  | softReset _ =>
    refine mapFits_of_eq h rfl fun k => ?_
    rw [region_completeSoftReset]
    exact fun hi => ⟨hi, rfl, rfl⟩
  | windowBase _ _ => exact h
  | goLive _ => exact h
  | beginSoftReset _ => exact h

/-- Settles O60: each law by itself is kept by every move, so by every step. -/
theorem mapAndRecordsKeepTheirShape : Obligations.MapAndRecordsKeepTheirShape := by
  intro s t hstep
  have path := step_path hstep
  exact ⟨path.keeps fun _ _ => Move.mapFits, path.keeps fun _ _ => Move.retireAgrees,
    path.keeps fun _ _ => Move.leasesShaped, path.keeps fun _ _ => Move.windowAligned,
    path.keeps fun _ _ => Move.bootIsEmpty⟩

end Sys2Proof.Machine
end

section
/-! SUPPORT. Leases, waiters and the map: that every range a live lease or a waiter names decodes to its slot, that INVALID
slots are named by none, and that holders and waiters keep the rights they need, along every move. -/

namespace Sys2Proof.Machine

open Sys2Proof.Safety Sys2Proof.Claims

/-! ## What is named, and who is entitled -/

/-- A live lease or a waiter names slot `r` for the range `q`. -/
def Occupied (s : State) (r : RegionId) (q : AddrRange) : Prop :=
  (∃ id : LeaseId, (s.lease id).live = true ∧ (s.lease id).region = r ∧ (s.lease id).range = q) ∨
  ∃ w ∈ s.le.waiters, w.region = r ∧ w.range = q

/-- A HELD lease or a waiter of requester `p` names slot `r` in mode `m`. -/
def Entitled (s : State) (p : PortId) (r : RegionId) (m : Mode) : Prop :=
  (∃ id : LeaseId, (s.lease id).state = .held ∧ (s.lease id).holder = p ∧ (s.lease id).region = r ∧ (s.lease id).mode = m) ∨
  ∃ w ∈ s.le.waiters, w.requester = p ∧ w.region = r ∧ w.mode = m

theorem live_of_held {l : Lease} (h : l.state = .held) : l.live = true := by simp [Lease.live, h]

theorem Entitled.occupied {s : State} {p : PortId} {r : RegionId} {m : Mode} (h : Entitled s p r m) :
    ∃ q, Occupied s r q := by
  rcases h with ⟨id, hh, _, hr, _⟩ | ⟨w, hw, _, hr, _⟩
  · exact ⟨_, .inl ⟨id, live_of_held hh, hr, rfl⟩⟩
  · exact ⟨_, .inr ⟨w, hw, hr, rfl⟩⟩

theorem rangesDecode_iff {s : State} :
    RangesDecode s ↔ ∀ r q, Occupied s r q → s.mu.decodeRange q = some r := by
  constructor
  · rintro ⟨hl, hw⟩ r q (⟨id, hlive, rfl, rfl⟩ | ⟨w, hm, rfl, rfl⟩)
    · exact hl id hlive
    · exact hw w hm
  · intro h
    exact ⟨fun id hlive => h _ _ (.inl ⟨id, hlive, rfl, rfl⟩), fun w hm => h _ _ (.inr ⟨w, hm, rfl, rfl⟩)⟩

theorem invalidSlotsEmpty_iff {s : State} :
    InvalidSlotsEmpty s ↔
      ∀ r, (s.region r).state = .invalid → (s.region r).inFlight = 0 ∧ ∀ q, ¬Occupied s r q := by
  refine forall_congr' fun r => imp_congr_right fun _ => and_congr_right fun _ => ?_
  constructor
  · rintro ⟨hl, hw⟩ q (⟨id, hlive, hr, _⟩ | ⟨w, hm, hr, _⟩)
    · exact hl id hlive hr
    · exact hw w hm hr
  · intro h
    exact ⟨fun id hlive hr => h _ (.inl ⟨id, hlive, hr, rfl⟩), fun w hm hr => h _ (.inr ⟨w, hm, hr, rfl⟩)⟩

theorem holdersHaveRights_iff {s : State} :
    HoldersHaveRights s ↔ ∀ p r m, Entitled s p r m → RightsSuffice s p r m := by
  constructor
  · rintro ⟨hl, hw⟩ p r m (⟨id, hh, rfl, rfl, rfl⟩ | ⟨w, hm, rfl, rfl, rfl⟩)
    · exact hl id hh
    · exact hw w hm
  · intro h
    exact ⟨fun id hh => h _ _ _ (.inl ⟨id, hh, rfl, rfl, rfl⟩), fun w hm => h _ _ _ (.inr ⟨w, hm, rfl, rfl, rfl⟩)⟩

/-- R22: no HELD lease and no waiter names a RETIRING slot. It is what a retirement needs of R168 within an event, where a
requester may have left ONLINE before its leases are revoked. -/
def RetiringQuiet (s : State) : Prop := ∀ r, (s.region r).state = .retiring → ∀ p m, ¬Entitled s p r m

theorem retiringQuiet_of_holdersOnline {s : State} (h : HoldersOnline s) : RetiringQuiet s := by
  obtain ⟨hl, hw⟩ := h
  rintro r hr p m (⟨id, hh, _, rfl, _⟩ | ⟨w, hm, _, rfl, _⟩)
  · rcases (hl id hh).2.2 with h | h <;> rw [h] at hr <;> cases hr
  · rcases (hw w hm).2.2 with h | h <;> rw [h] at hr <;> cases hr

/-- The laws of this part together: they are kept together. -/
structure FitsMap (s : State) : Prop where
  fits : MapFits s
  decode : ∀ r q, Occupied s r q → s.mu.decodeRange q = some r
  empty : ∀ r, (s.region r).state = .invalid → (s.region r).inFlight = 0 ∧ ∀ q, ¬Occupied s r q
  rights : ∀ p r m, Entitled s p r m → RightsSuffice s p r m
  quiet : RetiringQuiet s

/-! ## Changes at the Lease Engine -/

theorem Claimed.occupied {s : State} {w : Waiter} (h : Claimed s w) :
    Occupied s w.region w.range ∨ (s.mu.decodeRange w.range = some w.region ∧ (s.region w.region).state = .active) := by
  rcases h with hc | ⟨v, hv, hs⟩
  · exact .inr ⟨hc.range, hc.active⟩
  · exact .inl (.inr ⟨v, hv, hs.region, hs.range⟩)

theorem Claimed.entitled {s : State} {w : Waiter} (h : Claimed s w) :
    Entitled s w.requester w.region w.mode ∨
      ((s.region w.region).state = .active ∧ RightsSuffice s w.requester w.region w.mode) := by
  rcases h with hc | ⟨v, hv, hs⟩
  · exact .inr ⟨hc.active, hc.rights⟩
  · exact .inl (.inr ⟨v, hv, hs.requester, hs.region, hs.mode⟩)

/-- A record that is live after a change was live with its range before it, or is a grant. -/
theorem Becomes.live {s : State} {id : LeaseId} {l : Lease} (h : Becomes s id l) (hl : l.live = true) :
    ((s.lease id).live = true ∧ l.region = (s.lease id).region ∧ l.range = (s.lease id).range) ∨
      ∃ w, Claimed s w ∧ l.region = w.region ∧ l.range = w.range := by
  cases h with
  | kept => exact .inl ⟨hl, rfl, rfl⟩
  | freed => cases hl
  | counted _ _ _ h => exact .inl ⟨live_of_held h, rfl, rfl⟩
  | upgraded h _ => exact .inl ⟨live_of_held h, rfl, rfl⟩
  | downgraded h _ => exact .inl ⟨live_of_held h, rfl, rfl⟩
  | revoked x h => exact .inl ⟨live_of_held h, rfl, rfl⟩
  | draining x e h => exact .inl ⟨by simpa [Lease.live] using h, rfl, rfl⟩
  | drained h => exact .inl ⟨by simp [Lease.live, h], rfl, rfl⟩
  | granted w _ hw => exact .inr ⟨w, hw, rfl, rfl⟩

/-- R58: rights of both directions suffice for either mode. -/
theorem rightsSuffice_of_readWrite {s : State} {p : PortId} {r : RegionId} (m : Mode)
    (h : (s.region r).rights[p] = .readWrite) : RightsSuffice s p r m := by
  unfold RightsSuffice
  rw [h]
  rfl

/-- R58: rights that suffice for EXCLUSIVE are of both directions. -/
theorem readWrite_of_exclusive {s : State} {p : PortId} {r : RegionId} (h : RightsSuffice s p r .exclusive) :
    (s.region r).rights[p] = .readWrite := by
  unfold RightsSuffice at h
  cases hx : (s.region r).rights[p] with
  | none => rw [hx] at h; cases h
  | read => rw [hx] at h; cases h
  | readWrite => rfl

/-- R58 speaks of the rights of the slot. -/
theorem rightsSuffice_of_eq {s t : State} {p : PortId} {r : RegionId} {m : Mode}
    (h : (t.region r).rights = (s.region r).rights) (hs : RightsSuffice s p r m) : RightsSuffice t p r m := by
  rw [RightsSuffice, h]
  exact hs

/-- A record that is HELD after a change was HELD before it, with a mode whose rights suffice for the mode now, or is a
grant. -/
theorem Becomes.held {s : State} {id : LeaseId} {l : Lease} (h : Becomes s id l) (hl : l.state = .held) :
    ((s.lease id).state = .held ∧ l.holder = (s.lease id).holder ∧ l.region = (s.lease id).region ∧
        (RightsSuffice s (s.lease id).holder (s.lease id).region (s.lease id).mode →
          RightsSuffice s (s.lease id).holder (s.lease id).region l.mode)) ∨
      ∃ w, Claimed s w ∧ l.holder = w.requester ∧ l.region = w.region ∧ l.mode = w.mode := by
  cases h with
  | kept => exact .inl ⟨hl, rfl, rfl, fun hr => hr⟩
  | freed => cases hl
  | counted _ _ _ h => exact .inl ⟨h, rfl, rfl, fun hr => hr⟩
  | upgraded h hr => exact .inl ⟨h, rfl, rfl, fun _ => rightsSuffice_of_readWrite _ hr⟩
  | downgraded h hm =>
    exact .inl ⟨h, rfl, rfl, fun hr => rightsSuffice_of_readWrite _ (readWrite_of_exclusive (hm ▸ hr))⟩
  | revoked x h => cases hl
  | draining x e h => cases hl
  | drained h => cases hl
  | granted w _ hw => exact .inr ⟨w, hw, rfl, rfl, rfl⟩

theorem Served.occupied {s t : State} (h : Served s t) {r : RegionId} {q : AddrRange} (ho : Occupied t r q) :
    Occupied s r q ∨ (s.mu.decodeRange q = some r ∧ (s.region r).state = .active) := by
  rcases ho with ⟨id, hl, rfl, rfl⟩ | ⟨w, hm, rfl, rfl⟩
  · rcases (h.lease id).live hl with ⟨hold, hr, hq⟩ | ⟨w, hw, hr, hq⟩
    · exact .inl (.inl ⟨id, hold, hr.symm, hq.symm⟩)
    · rw [hr, hq]
      exact hw.occupied
  · exact (h.waiters w hm).occupied

theorem Served.entitled {s t : State} (h : Served s t) {p : PortId} {r : RegionId} {m : Mode} (he : Entitled t p r m) :
    (∃ m', Entitled s p r m' ∧ (RightsSuffice s p r m' → RightsSuffice s p r m)) ∨
      ((s.region r).state = .active ∧ RightsSuffice s p r m) := by
  have claimed : ∀ {w : Waiter}, Claimed s w → w.requester = p → w.region = r → w.mode = m →
      (∃ m', Entitled s p r m' ∧ (RightsSuffice s p r m' → RightsSuffice s p r m)) ∨
        ((s.region r).state = .active ∧ RightsSuffice s p r m) := by
    rintro w hw rfl rfl rfl
    exact hw.entitled.imp_left fun k => ⟨_, k, id⟩
  rcases he with ⟨i, hh, rfl, rfl, rfl⟩ | ⟨w, hm, hp, hr, hmode⟩
  · rcases (h.lease i).held hh with ⟨hold, hp, hr, hs⟩ | ⟨w, hw, hp, hr, hmode⟩
    · rw [hp, hr]
      exact .inl ⟨_, .inl ⟨i, hold, rfl, rfl, rfl⟩, hs⟩
    · exact claimed hw hp.symm hr.symm hmode.symm
  · exact claimed (h.waiters w hm) hp hr hmode

theorem FitsMap.served {s t : State} (h : FitsMap s) (hs : Served s t) : FitsMap t := by
  have region : ∀ r, t.region r = s.region r := fun r => by unfold State.region; rw [hs.mu]
  refine ⟨Move.mapFits (.served hs) h.fits, fun r q ho => ?_, fun r hi => ?_, fun p r m he => ?_, fun r hr p m he => ?_⟩
  · rw [hs.mu]
    rcases hs.occupied ho with ho | ⟨hd, _⟩
    · exact h.decode r q ho
    · exact hd
  · rw [region] at hi ⊢
    refine ⟨(h.empty r hi).1, fun q ho => ?_⟩
    rcases hs.occupied ho with ho | ⟨_, ha⟩
    · exact (h.empty r hi).2 q ho
    · rw [hi] at ha
      cases ha
  · rw [RightsSuffice, region]
    rcases hs.entitled he with ⟨m', he, hr⟩ | ⟨_, hr⟩
    · exact hr (h.rights p r m' he)
    · exact hr
  · rw [region] at hr
    rcases hs.entitled he with ⟨m', he, _⟩ | ⟨ha, _⟩
    · exact h.quiet r hr p m' he
    · rw [hr] at ha
      cases ha

/-! ## Changes of the map -/

/-- R3: while the map is BOOT nothing is named. -/
theorem FitsMap.not_occupied {s : State} (h : FitsMap s) (hb : s.mu.map = .boot) (r : RegionId) (q : AddrRange) :
    ¬Occupied s r q := fun ho => by
  have := h.decode r q ho
  rw [decodeRange_of_boot hb] at this
  cases this

/-- A part in which nothing is named keeps these laws where the map is well formed and INVALID slots have no access in
flight. -/
theorem FitsMap.of_not_occupied {s : State} (hf : MapFits s) (hn : ∀ r q, ¬Occupied s r q)
    (hc : ∀ r, (s.region r).state = .invalid → (s.region r).inFlight = 0) : FitsMap s := by
  have none : ∀ p r m, ¬Entitled s p r m := fun p r m he => by
    obtain ⟨q, ho⟩ := he.occupied
    exact hn r q ho
  exact ⟨hf, fun r q ho => absurd ho (hn r q), fun r hi => ⟨hc r hi, hn r⟩, fun p r m he => absurd he (none p r m),
    fun r _ p m => none p r m⟩

/-- A change of the map that moves no slot and changes no rights, and after which no slot newly INVALID or RETIRING is
named. -/
theorem FitsMap.of_slots {s t : State} (h : FitsMap s) (hf : MapFits t) (hm : t.mu.map = s.mu.map)
    (hw : t.mu.windowBase = s.mu.windowBase) (hg : t.mu.groups = s.mu.groups)
    (ho : ∀ r q, Occupied t r q → Occupied s r q) (he : ∀ p r m, Entitled t p r m → Entitled s p r m)
    (hr : ∀ r : RegionId, (t.region r).offset = (s.region r).offset ∧ (t.region r).exp = (s.region r).exp ∧
      (t.region r).rights = (s.region r).rights ∧
      ((t.region r).state ≠ .invalid → (s.region r).state ≠ .invalid))
    (hi : ∀ r : RegionId, (t.region r).state = .invalid → (t.region r).inFlight = 0 ∧ ∀ q, ¬Occupied t r q)
    (hq : RetiringQuiet t) : FitsMap t := by
  refine ⟨hf, fun r q k => ?_, hi, fun p r m k => ?_, hq⟩
  · have hgr : ∀ g : GroupId, t.mu.groups[g] = s.mu.groups[g] := fun g => by rw [hg]
    refine decodeRange_stays (h.decode r q (ho r q k)) hm hw (hgr _) (fun g _ hh => ?_) (fun hinv => ?_) ?_
      fun k _ _ hk => ?_
    · rw [groupHolds_iff, hgr] at hh
      exact groupHolds_iff.mpr hh
    · exact (hi r hinv).2 q k
    · obtain ⟨hoff, hexp, _⟩ := hr r
      unfold State.region at hoff hexp
      unfold MapUnit.extent Region.extent
      rw [hgr, hoff, hexp]
    · obtain ⟨hoff, hexp, _, hst⟩ := hr k
      exact slotMeets_of_region hk (hgr _) hst hoff hexp
  · obtain ⟨_, _, hrights, _⟩ := hr r
    exact rightsSuffice_of_eq hrights (h.rights p r m (he p r m k))

/-- R7: a GROUP_SET moves no slot that is named, for it comes over no other group. -/
theorem FitsMap.groupSet {s : State} {g : GroupId} (h : FitsMap s) (hc : s.checkGroupSet g = .ok) :
    FitsMap { s with mu := { s.mu with groups := s.mu.groups.set g (stagedGroup s.mgp.groupStage) } } := by
  obtain ⟨_, noSlots, clear⟩ := checkGroupSet_ok hc
  refine ⟨mapFits_groupSet h.fits hc, fun r q ho => ?_, h.empty, h.rights, h.quiet⟩
  have hd := h.decode r q ho
  have hne : ∀ k : RegionId, groupOf k = groupOf r → g ≠ groupOf k := fun k hk e =>
    state_of_decodeRange hd (noSlots r (hk ▸ e.symm))
  have same : ∀ k : GroupId, g ≠ k → (s.mu.groups.set g (stagedGroup s.mgp.groupStage))[k] = s.mu.groups[k] :=
    fun k hk => by rw [vector_get_set, if_neg hk]
  obtain ⟨_, ⟨hgr, _⟩, _⟩ := decodeRange_eq_some_iff.mp hd
  obtain ⟨hv, hcov⟩ := groupHolds_iff.mp hgr
  refine decodeRange_stays hd rfl rfl (same _ (hne r rfl)) (fun k _ hh => ?_) 
    (show (s.mu.regions[r]).state ≠ .invalid from state_of_decodeRange hd) ?_
    fun k _ hk hh => ?_
  · by_cases e : g = k
    · subst e
      rw [groupHolds_iff, vector_get_set, if_pos rfl] at hh
      have hover := groupOverlaps_iff.mpr
        ⟨hh.1, groupOf r, (hne r rfl).symm, hv, AddrRange.overlaps_of_covers hcov hh.2⟩
      rw [clear] at hover
      cases hover
    · rw [groupHolds_iff, same k e] at hh
      exact groupHolds_iff.mpr hh
  · unfold MapUnit.extent
    rw [same _ (hne r rfl)]
  · exact slotMeets_of_region hh (same _ (hne k hk)) id rfl rfl

/-- R16: a slot that is named is in use. -/
theorem Occupied.inUse {s : State} {r : RegionId} {q : AddrRange} (h : Occupied s r q) : s.inUse r = true := by
  rw [inUse_iff]
  rcases h with ⟨id, hl, hr, _⟩ | ⟨w, hw, hr, _⟩
  · exact .inl ⟨id, hl, hr⟩
  · exact .inr (.inl ⟨w, hw, hr⟩)

/-- R17: what a REGION_COMMIT leaves of a slot that is named: its extent and rights. -/
theorem FitsMap.commit_keeps {s : State} {r : RegionId} {d : Region} {q : AddrRange} (h : FitsMap s)
    (hc : s.checkCommit r = .ok d) (ho : Occupied s r q) :
    (s.region r).state ≠ .invalid ∧ d.offset = (s.region r).offset ∧ d.exp = (s.region r).exp ∧
      d.rights = (s.region r).rights := by
  obtain ⟨_, _, hu, _⟩ := checkCommit_ok hc
  have hi : (s.region r).state ≠ .invalid := fun hi => (h.empty r hi).2 q ho
  have hsame : fixedFieldsDiffer d (s.region r) = false :=
    Bool.eq_false_of_not_eq_true fun hd => hu ⟨hi, ho.inUse, hd⟩
  rw [← Bool.not_eq_true, fixedFieldsDiffer_iff, not_not] at hsame
  obtain ⟨hoff, hexp, _, _, hrights, _, _⟩ := hsame
  exact ⟨hi, hoff, hexp, hrights⟩

theorem state_installed (old staged : Region) : (installed old staged).state ≠ .invalid := by
  unfold installed
  dsimp only
  split
  · decide
  · assumption

/-- R17, R18: a REGION_COMMIT moves no range: a slot that is named keeps its extent, and a new extent comes over none of a
higher slot. -/
theorem FitsMap.commit {s : State} {r : RegionId} {d : Region} (h : FitsMap s) (hc : s.checkCommit r = .ok d) :
    FitsMap (s.updRegion r fun old => installed old d) := by
  obtain ⟨hwrong, _, _, hshadow⟩ := checkCommit_ok hc
  refine ⟨Move.mapFits (.commit r d hc) h.fits, fun k q ho => ?_, fun k hi => ?_, fun p k m he => ?_, fun k hr p m he => ?_⟩
  · have hd := h.decode k q ho
    have slot : ∀ j, ((s.updRegion r fun old => installed old d).mu.regions[j]) =
        if r = j then installed (s.region j) d else s.region j := region_updRegion s r _
    have other : ∀ {j}, r ≠ j → ((s.updRegion r fun old => installed old d).mu.regions[j]) = s.mu.regions[j] :=
      fun hj => (slot _).trans (if_neg hj)
    refine decodeRange_stays hd rfl rfl rfl (fun _ _ hh => hh) ?_ ?_ fun j hlt hj hh => ?_
    · rw [slot]
      split
      · exact state_installed _ d
      · exact state_of_decodeRange hd
    · unfold MapUnit.extent
      by_cases e : r = k
      · subst e
        obtain ⟨_, hoff, hexp, _⟩ := h.commit_keeps hc ho
        rw [slot, if_pos rfl]
        unfold Region.extent
        rw [show (installed (s.region r) d).offset = (s.region r).offset from hoff,
          show (installed (s.region r) d).exp = (s.region r).exp from hexp]
        rfl
      · rw [other e]
        rfl
    · by_cases e : r = j
      · subst e
        have hover : q.overlaps (d.extent s.mu.groups[groupOf r]) = true := by
          have meets := (slotMeets_iff.mp hh).2
          unfold MapUnit.extent at meets
          rw [slot, if_pos rfl] at meets
          rw [AddrRange.overlaps_comm]
          exact meets
        have shadowed : s.shadowsLease r (d.extent s.mu.groups[groupOf r]) = true := by
          rw [shadowsLease_iff]
          rcases ho with ⟨id, hl, rfl, rfl⟩ | ⟨w, hm, rfl, rfl⟩
          · exact .inl ⟨id, hl, ⟨hlt, hj.symm⟩, hover⟩
          · exact .inr ⟨w, hm, ⟨hlt, hj.symm⟩, hover⟩
        rw [hshadow] at shadowed
        cases shadowed
      · have same := other e
        exact slotMeets_of_region hh rfl (by rw [same]; exact id) (by rw [same]) (by rw [same])
  · rw [region_updRegion] at hi ⊢
    split at hi
    · exact absurd hi (state_installed _ d)
    · next e =>
      rw [if_neg e]
      exact h.empty k hi
  · refine rightsSuffice_of_eq ?_ (h.rights p k m he)
    rw [region_updRegion]
    split
    · next e =>
      subst e
      obtain ⟨q, ho⟩ := he.occupied
      exact (h.commit_keeps hc ho).2.2.2
    · rfl
  · rw [region_updRegion] at hr
    split at hr
    · next e =>
      subst e
      unfold installed at hr
      dsimp only at hr
      split at hr
      · cases hr
      · exact hwrong (.inl hr)
    · exact h.quiet k hr p m he

/-! ## The retirement of a slot -/

theorem Occupied.of_beginRetire {s : State} {r k : RegionId} {q : AddrRange} (h : Occupied (s.beginRetire r) k q) :
    Occupied s k q := by
  rcases h with ⟨id, hl, rfl, rfl⟩ | ⟨w, hw, rfl, rfl⟩
  · left
    refine ⟨id, ?_⟩
    rw [lease_beginRetire] at hl ⊢
    split
    · next hh =>
      refine ⟨live_of_held hh.1, ?_⟩
      unfold Revoked
      split <;> exact ⟨rfl, rfl⟩
    · next hh => exact ⟨by rwa [if_neg hh] at hl, rfl, rfl⟩
  · rw [waiters_beginRetire] at hw
    exact .inr ⟨w, List.mem_of_mem_filter hw, rfl, rfl⟩

/-- R22, R90: once a retirement has started, what is entitled was so before, on another slot. -/
theorem Entitled.of_beginRetire {s : State} {r k : RegionId} {p : PortId} {m : Mode}
    (h : Entitled (s.beginRetire r) p k m) : Entitled s p k m ∧ k ≠ r := by
  rcases h with ⟨id, hh, rfl, rfl, rfl⟩ | ⟨w, hw, rfl, rfl, rfl⟩
  · rw [lease_beginRetire] at hh ⊢
    split
    · next hr =>
      rw [if_pos hr] at hh
      unfold Revoked at hh
      split at hh <;> cases hh
    · next hr =>
      rw [if_neg hr] at hh
      exact ⟨.inl ⟨id, hh, rfl, rfl, rfl⟩, fun e => hr ⟨hh, e⟩⟩
  · rw [waiters_beginRetire] at hw
    obtain ⟨hm, hne⟩ := List.mem_filter.mp hw
    exact ⟨.inr ⟨w, hm, rfl, rfl, rfl⟩, by simpa using hne⟩

theorem FitsMap.beginRetire {s : State} {r : RegionId} (h : FitsMap s) (hu : s.mgp.unit = .idle)
    (hr : (s.region r).state = .active ∨ (s.region r).state = .suspended) : FitsMap (s.beginRetire r) := by
  have work := beginRetire_leaseWork r s
  refine h.of_slots (Move.mapFits (.beginRetire r hu hr) h.fits) (by rw [work.mu]; rfl) (by rw [work.mu]; rfl)
    (by rw [work.mu]; rfl) (fun _ _ => .of_beginRetire) (fun _ _ _ k => k.of_beginRetire.1) (fun k => ?_) (fun k hi => ?_)
    fun k hk p m he => ?_
  · rw [region_beginRetire]
    split
    · next e =>
      subst e
      exact ⟨rfl, rfl, rfl, fun _ => by rcases hr with hr | hr <;> simp [hr]⟩
    · exact ⟨rfl, rfl, rfl, id⟩
  · rw [region_beginRetire] at hi ⊢
    split at hi
    · cases hi
    · next e =>
      rw [if_neg e]
      exact ⟨(h.empty k hi).1, fun q ho => (h.empty k hi).2 q ho.of_beginRetire⟩
  · obtain ⟨hs, hne⟩ := he.of_beginRetire
    rw [region_beginRetire, if_neg hne.symm] at hk
    exact h.quiet k hk p m hs

/-- R23: at the completion of a retirement nothing names the slot. -/
theorem FitsMap.not_occupied_of_retireDone {s : State} {r : RegionId} (h : FitsMap s) (hd : s.retireDone r = true)
    (q : AddrRange) : ¬Occupied s r q := by
  obtain ⟨hr, _, hdrain⟩ := retireDone_iff.mp hd
  rintro (⟨id, hl, hn, _⟩ | ⟨w, hw, hn, _⟩)
  · have state : (s.lease id).state = .held ∨ (s.lease id).state = .draining := by simpa [Lease.live] using hl
    rcases state with hs | hs
    · exact h.quiet r hr _ _ (.inl ⟨id, hs, rfl, hn, rfl⟩)
    · exact hdrain id ⟨hs, hn⟩
  · exact h.quiet r hr _ _ (.inr ⟨w, hw, rfl, hn, rfl⟩)

theorem FitsMap.retired {s : State} {r : RegionId} (h : FitsMap s) (hd : s.retireDone r = true) :
    FitsMap ((s.updRegion r fun d => { d with state := .invalid }).finish 6#4 .ok) := by
  refine h.of_slots (Move.mapFits (.retired r hd) h.fits) rfl rfl rfl (fun _ _ => id) (fun _ _ _ => id) (fun k => ?_)
    (fun k hi => ?_) fun k hk p m he => ?_
  · rw [finish_region, region_updRegion]
    split
    · exact ⟨rfl, rfl, rfl, fun hi => absurd rfl hi⟩
    · exact ⟨rfl, rfl, rfl, id⟩
  · rw [finish_region, region_updRegion] at hi ⊢
    by_cases e : r = k
    · subst e
      rw [if_pos rfl]
      exact ⟨(retireDone_iff.mp hd).2.1, fun q ho => h.not_occupied_of_retireDone hd q ho⟩
    · rw [if_neg e] at hi ⊢
      exact h.empty k hi
  · rw [finish_region, region_updRegion] at hk
    split at hk
    · cases hk
    · exact h.quiet k hk p m he

/-! ## Every move, and every step -/

theorem Move.fitsMap {s t : State} (m : Move s t) (h : FitsMap s) : FitsMap t := by
  have fits := m.mapFits h.fits
  cases m with
  | served hs => exact h.served hs
  | groupSet g hc => exact h.groupSet hc
  | commit r d hc => exact h.commit hc
  | beginRetire r hu hr => exact h.beginRetire hu hr
  | retired r hd => exact h.retired hd
  | windowBase v hb => exact .of_not_occupied fits (h.not_occupied hb) fun r hi => (h.empty r hi).1
  | goLive hb => exact .of_not_occupied fits (h.not_occupied hb) fun r hi => (h.empty r hi).1
  | beginSoftReset _ => exact ⟨fits, h.decode, h.empty, h.rights, h.quiet⟩
  | hardwareReset =>
    refine .of_not_occupied fits (fun r q ho => ?_) fun r _ => by rw [region_hardwareReset]; rfl
    rcases ho with ⟨id, hl, _⟩ | ⟨w, hw, _⟩
    · rw [lease_hardwareReset] at hl
      cases hl
    · cases hw
  | softReset _ =>
    refine .of_not_occupied fits (fun r q ho => ?_) fun r _ => by rw [region_completeSoftReset]
    rcases ho with ⟨id, hl, _⟩ | ⟨w, hw, _⟩
    · rw [lease_completeSoftReset] at hl
      cases hl
    · cases hw
  | suspendOrResume r x hx hr =>
    have running : ∀ {y : RegionState}, y = .active ∨ y = .suspended → y ≠ .invalid ∧ y ≠ .retiring := by
      rintro y (rfl | rfl) <;> decide
    refine h.of_slots fits rfl rfl rfl (fun _ _ => id) (fun _ _ _ => id) (fun k => ?_) (fun k hi => ?_)
      fun k hk p m he => ?_
    · rw [region_updRegion]
      split
      · next e =>
        subst e
        exact ⟨rfl, rfl, rfl, fun _ => (running hr).1⟩
      · exact ⟨rfl, rfl, rfl, id⟩
    · rw [region_updRegion] at hi ⊢
      split at hi
      · exact absurd hi (running hx).1
      · next e =>
        rw [if_neg e]
        exact h.empty k hi
    · rw [region_updRegion] at hk
      split at hk
      · exact absurd hk (running hx).2
      · exact h.quiet k hk p m he
  | count r n hn =>
    have state : ∀ k, ((s.updRegion r fun d => { d with inFlight := n }).region k).state = (s.region k).state := by
      intro k
      rw [region_updRegion]
      split <;> rfl
    refine h.of_slots fits rfl rfl rfl (fun _ _ => id) (fun _ _ _ => id) (fun k => ?_) (fun k hi => ?_)
      fun k hk p m he => ?_
    · rw [region_updRegion]
      split
      · exact ⟨rfl, rfl, rfl, id⟩
      · exact ⟨rfl, rfl, rfl, id⟩
    · rw [state] at hi
      obtain ⟨hc, ho⟩ := h.empty k hi
      refine ⟨?_, ho⟩
      rw [region_updRegion]
      split
      · next e =>
        subst e
        rcases hn with ha | hle
        · rw [hi] at ha
          cases ha
        · exact Nat.le_zero.mp (hc ▸ hle)
      · exact hc
    · rw [state] at hk
      exact h.quiet k hk p m he

/-- Settles O59: the laws together are kept by every move; the addresses of a range then go where the range goes, for the
groups are disjoint. -/
theorem leasesFitTheMap : Obligations.LeasesFitTheMap := by
  intro s t honline hranges hempty hrights hfits hstep
  have start : FitsMap s :=
    ⟨hfits, rangesDecode_iff.mp hranges, invalidSlotsEmpty_iff.mp hempty, holdersHaveRights_iff.mp hrights,
      retiringQuiet_of_holdersOnline honline⟩
  have h : FitsMap t := (step_path hstep).keeps (fun _ _ => Move.fitsMap) start
  have ranges : RangesDecode t := rangesDecode_iff.mpr h.decode
  obtain ⟨_, disjoint, _⟩ := h.fits
  exact ⟨ranges, invalidSlotsEmpty_iff.mpr h.empty, holdersHaveRights_iff.mpr h.rights,
    fun id x hl hx p dir => decode_of_decodeRange disjoint (ranges.1 id hl) hx p dir⟩

end Sys2Proof.Machine
end

section
/-! The reset values of the records (R1, R4, R6, R8, R80, R93, R103, R139, R140) and the laws of the part at reset. -/

namespace Sys2Proof.Machine

open Sys2Proof.Safety Sys2Proof.Claims

/-- Settles O4: a hardware reset takes the state after reset, record by record. -/
theorem hardwareResetRecords : Obligations.HardwareResetRecords := by
  intro s
  refine ⟨s.hardwareReset, rfl, rfl, rfl, rfl, fun g => ?_, region_hardwareReset s, lease_hardwareReset s, rfl, rfl, rfl, rfl,
    rfl, rfl, rfl, fun l => ?_, rfl, fun x => ?_⟩
  · exact Vector.getElem_replicate g.isLt
  · exact Vector.getElem_replicate l.isLt
  · exact Vector.getElem_replicate x.isLt

/-! ## The state after reset -/

theorem lease_reset (id : LeaseId) : State.reset.lease id = Lease.freeWith 0#4 := Vector.getElem_replicate id.isLt

theorem region_reset (r : RegionId) : State.reset.region r = Region.reset := Vector.getElem_replicate r.isLt

theorem group_reset (g : GroupId) : State.reset.mu.groups[g] = Group.reset := Vector.getElem_replicate g.isLt

theorem port_reset (p : PortId) : State.reset.port p = Port.reset p false none := by
  fin_cases p <;> rfl

/-- R80: after reset no lease is live. -/
theorem live_reset (id : LeaseId) : (State.reset.lease id).live = false := by
  rw [lease_reset]
  rfl

theorem countsAgree_reset : CountsAgree State.reset := by
  refine ⟨?_, fun p => ?_⟩
  · have all : allLeases.countP (fun id => (State.reset.lease id).state == .free) = allLeases.length := by
      rw [List.countP_eq_length]
      intro id _
      rw [lease_reset]
      rfl
    rw [all]
    rfl
  · have none : allLeases.countP (State.reset.tombstoneOf p) = 0 := by
      rw [List.countP_eq_zero]
      intro id _
      rw [State.tombstoneOf, lease_reset]
      exact Bool.false_ne_true
    rw [none, port_reset]
    rfl

theorem inFlightAgrees_reset : InFlightAgrees State.reset := by
  have idle : ∀ p : PortId, (State.reset.port p).access.state = .idle := fun p => by rw [port_reset]; rfl
  refine ⟨fun p h => absurd (idle p) h, fun id h => ?_, fun id h => ?_, fun r => ?_, fun p => ?_⟩
  · rw [lease_reset] at h
    cases h
  · rw [lease_reset] at h
    cases h
  · have none : (allPorts.countP fun p => (State.reset.port p).access.state != .idle &&
        (State.reset.port p).access.region == some r) = 0 := by
      rw [List.countP_eq_zero]
      intro p _
      rw [idle]
      simp
    rw [none, region_reset]
    rfl
  · rw [idle]
    exact ⟨nofun, nofun⟩

theorem faultsContained_reset : FaultsContained State.reset := by
  refine ⟨by decide, fun p => ?_⟩
  rw [port_reset]
  exact ⟨Nat.zero_le _, fun _ => show 0 < Config.faultThresholdReset by decide, fun _ => rfl⟩

theorem mapFits_reset : MapFits State.reset := by
  refine ⟨fun g h => ?_, fun g _ _ h => ?_, fun r h => ?_⟩
  · rw [group_reset] at h
    cases h
  · rw [group_reset] at h
    cases h
  · rw [region_reset] at h
    exact absurd rfl h

/-- Settles O6: after reset every lease is FREE, no waiter waits, every slot and group is INVALID and every port idle, so
that each law holds with nothing to speak of. -/
theorem lawsHoldAtReset : Obligations.LawsHoldAtReset := by
  have noWaiter : ∀ w, w ∉ State.reset.le.waiters := fun w h => by cases h
  have notHeld : ∀ id : LeaseId, (State.reset.lease id).state ≠ .held := fun id h => by
    rw [lease_reset] at h
    cases h
  have notLive : ∀ id : LeaseId, (State.reset.lease id).live ≠ true := fun id h => by
    rw [live_reset] at h
    cases h
  refine ⟨by decide, fun _ => ⟨rfl, fun id => ?_⟩, countsAgree_reset, .nil, ⟨.nil, fun w h => absurd h (noWaiter w)⟩,
    ⟨fun r => ?_, fun id h => absurd h (notHeld id)⟩, faultsContained_reset,
    ⟨fun id h => absurd h (notHeld id), fun w h => absurd h (noWaiter w)⟩,
    ⟨fun i _ _ h => absurd h (notLive i), fun w h => absurd h (noWaiter w), .nil⟩, fun id => ?_, inFlightAgrees_reset,
    ⟨fun id h => absurd h (notLive id), fun w h => absurd h (noWaiter w)⟩,
    fun r _ => ⟨?_, fun id h => absurd h (notLive id), fun w h => absurd h (noWaiter w)⟩, mapFits_reset,
    ⟨fun id h => absurd h (notHeld id), fun w h => absurd h (noWaiter w)⟩, fun r => ?_⟩
  · rw [lease_reset]
    rfl
  · rw [region_reset]
    decide
  · rw [lease_reset]
    exact leaseShape_freeWith _
  · rw [region_reset]
    rfl
  · rw [region_reset]
    exact ⟨nofun, nofun⟩

end Sys2Proof.Machine
end

section
/-! SUPPORT. What a grant scan does (R96, R97, R116): to the slots, to the waiters it grants and to the boards, along its walk;
and what it leaves that it could not grant. -/

namespace Sys2Proof.Machine

open Sys2Proof.Safety Sys2Proof.Claims

/-! ## Flags -/

/-- Table 10-9: the events stand in the order of their bits. -/
theorem Event.ofNat_bit (e : Event) : Event.ofNat e.bit = e := by cases e <;> rfl

theorem Event.bit_injective {e f : Event} (h : e.bit = f.bit) : e = f := by
  rw [← e.ofNat_bit, h, f.ofNat_bit]

theorem flagged_raise (s : State) (e f : Event) : (s.raise f).flagged e = (s.flagged e || f.mask.getLsbD e.bit) :=
  BitVec.getLsbD_or

theorem mask_getLsbD_ne {e f : Event} (h : e ≠ f) : f.mask.getLsbD e.bit = false := by
  have hne : e.bit ≠ f.bit := fun k => h (Event.bit_injective k)
  rw [Event.mask, BitVec.getLsbD_shiftLeft]
  by_cases hlt : e.bit < f.bit
  · simp [hlt]
  · have : e.bit - f.bit ≠ 0 := by omega
    simp [BitVec.getLsbD_one, this]

/-- R182: a raise leaves every other flag. -/
theorem flagged_raise_ne (s : State) {e f : Event} (h : e ≠ f) : (s.raise f).flagged e = s.flagged e := by
  rw [flagged_raise, mask_getLsbD_ne h, Bool.or_false]

/-! ## One grant -/

theorem flagged_grantWaiter (id : LeaseId) (w : Waiter) (s : State) {e : Event} (h : e ≠ .slotsLow) :
    (s.grantWaiter id w).flagged e = s.flagged e := by
  have weigh : ∀ (n : Nat) (u : State), (u.weighSlotsLow n).flagged e = u.flagged e := by
    intro n u
    unfold State.weighSlotsLow
    split
    · exact flagged_raise_ne u h
    · rfl
  have put : ∀ l, (s.putLease id l).flagged e = s.flagged e := fun l => by
    unfold State.flagged
    rw [mgp_putLease]
  unfold State.grantWaiter State.grantLease
  exact (weigh _ _).trans (put _)

/-- R97: a port after a grant into a FREE slot. -/
theorem port_grantWaiter {id : LeaseId} {s : State} (h : (s.lease id).state = .free) (w : Waiter) (p : PortId) :
    (s.grantWaiter id w).port p =
      if w.requester = p then
        { s.port p with board := (s.port p).board.set w.tag (some (.granted id ((s.lease id).generation + 1#4))) }
      else s.port p := by
  unfold State.grantWaiter State.grantLease
  dsimp only
  rw [port_placeNotice, port_weighSlotsLow,
    port_putLease_of_ne_revoked (by rw [h]; decide) (show LeaseState.held ≠ .revoked by decide)]

theorem board_grantWaiter {id : LeaseId} {s : State} (h : (s.lease id).state = .free) (w : Waiter) (p : PortId) (tag : Tag) :
    ((s.grantWaiter id w).port p).board[tag] =
      if w.requester = p ∧ w.tag = tag then some (.granted id ((s.lease id).generation + 1#4))
      else (s.port p).board[tag] := by
  rw [port_grantWaiter h]
  by_cases hp : w.requester = p
  · rw [if_pos hp]
    change ((s.port p).board.set w.tag _)[tag] = _
    rw [vector_get_set]
    simp [hp]
  · rw [if_neg hp, if_neg fun k => hp k.1]

/-! ## The walk -/

/-- R84: no two waiters of a list have the same requester and tag. -/
abbrev KeysUnique (ws : List Waiter) : Prop := ws.Pairwise fun a b => ¬(a.requester = b.requester ∧ a.tag = b.tag)

theorem KeysUnique.eq {ws : List Waiter} (h : KeysUnique ws) {v w : Waiter} (hv : v ∈ ws) (hw : w ∈ ws)
    (k : v.requester = w.requester ∧ v.tag = w.tag) : v = w := by
  have symmetric : Std.Symm fun a b : Waiter => ¬(a.requester = b.requester ∧ a.tag = b.tag) :=
    ⟨fun _ _ hab hba => hab ⟨hba.1.symm, hba.2.symm⟩⟩
  by_contra hne
  exact List.Pairwise.forall h hv hw hne k

/-- R96, R97: what a scan of the waiters `ws` does. FREE slots stay or are granted; a waiter that leaves is granted a slot;
only the tags of waiters that leave get a notice; only SLOTS_LOW is raised. -/
structure Walked (ws : List Waiter) (s t : State) : Prop where
  grants : ∀ id : LeaseId, (s.lease id).state = .free →
    t.lease id = s.lease id ∨ ∃ w ∈ ws, Left t w ∧ GrantedTo s t w id
  leavers : ∀ w ∈ ws, Left t w → ∃ id : LeaseId, (s.lease id).state = .free ∧ GrantedTo s t w id
  board : ∀ (p : PortId) (tag : Tag), (t.port p).board[tag] = (s.port p).board[tag] ∨
    ∃ w ∈ ws, w.requester = p ∧ w.tag = tag ∧ Left t w
  tombstones : ∀ p : PortId, (t.port p).tombstones = (s.port p).tombstones
  flags : ∀ e : Event, e ≠ .slotsLow → t.flagged e = s.flagged e

/-- A walk that grants nothing leaves every waiter in the list. -/
theorem Walked.stop {ws : List Waiter} {s t : State} (hl : t.le.leases = s.le.leases) (hp : t.ptc = s.ptc)
    (hm : t.mgp = s.mgp) (hw : ∀ w ∈ ws, w ∈ t.le.waiters) : Walked ws s t where
  grants id _ := .inl (by unfold State.lease; rw [hl])
  leavers w h left := absurd ⟨rfl, rfl⟩ (left w (hw w h))
  board p tag := .inl (by unfold State.port; rw [hp])
  tombstones p := by unfold State.port; rw [hp]
  flags e _ := by unfold State.flagged; rw [hm]

/-- A walk that passes over a waiter. -/
theorem Walked.pass {w : Waiter} {ws : List Waiter} {s t : State} (h : Walked ws s t) (hw : w ∈ t.le.waiters) :
    Walked (w :: ws) s t where
  grants id hf := (h.grants id hf).imp_right fun ⟨v, hv, k⟩ => ⟨v, List.mem_cons_of_mem w hv, k⟩
  leavers v hv left := by
    rcases List.mem_cons.mp hv with rfl | hv
    · exact absurd ⟨rfl, rfl⟩ (left v hw)
    · exact h.leavers v hv left
  board p tag := (h.board p tag).imp_right fun ⟨v, hv, k⟩ => ⟨v, List.mem_cons_of_mem w hv, k⟩
  tombstones := h.tombstones
  flags := h.flags

/-- A grant in another slot of the same record and region. -/
theorem GrantRecord_eq {s s' : State} {w : Waiter} {id : LeaseId} (hl : s'.lease id = s.lease id)
    (hr : (s'.region w.region).term = (s.region w.region).term) : GrantRecord s' w id = GrantRecord s w id := by
  unfold GrantRecord
  rw [hl, hr]

/-- A walk that grants a waiter the slot `id`, and goes on. -/
theorem Walked.grant {w : Waiter} {ws : List Waiter} {s t : State} {id : LeaseId} (h : Walked ws (s.grantWaiter id w) t)
    (hf : (s.lease id).state = .free) (hk : t.lease id = (s.grantWaiter id w).lease id)
    (hn : ∀ v ∈ ws, ¬(v.requester = w.requester ∧ v.tag = w.tag)) (left : Left t w) : Walked (w :: ws) s t := by
  have record : (s.grantWaiter id w).lease id = GrantRecord s w id := (lease_grantWaiter id w s id).trans (if_pos rfl)
  have other : ∀ j, id ≠ j → (s.grantWaiter id w).lease j = s.lease j := fun j hj =>
    (lease_grantWaiter id w s j).trans (if_neg hj)
  have here : GrantedTo s t w id := by
    refine ⟨hk.trans record, ?_⟩
    rcases h.board w.requester w.tag with hb | ⟨v, hv, hr, ht, _⟩
    · rw [hb, board_grantWaiter hf, if_pos ⟨rfl, rfl⟩]
    · exact absurd ⟨hr, ht⟩ (hn v hv)
  have lift : ∀ {v : Waiter} {j : LeaseId}, id ≠ j → GrantedTo (s.grantWaiter id w) t v j → GrantedTo s t v j := by
    rintro v j hj ⟨hl, hb⟩
    refine ⟨hl.trans (GrantRecord_eq (other j hj) ?_), by rw [hb, other j hj]⟩
    rw [(grantWaiter_leaseWork id w s).region]
  refine ⟨fun j hj => ?_, fun v hv hl => ?_, fun p tag => ?_, fun p => ?_, fun e he => ?_⟩
  · by_cases e : id = j
    · subst e
      exact .inr ⟨w, List.mem_cons_self, left, here⟩
    · rw [← other j e] at hj ⊢
      exact (h.grants j hj).imp_right fun ⟨v, hv, hl, hg⟩ => ⟨v, List.mem_cons_of_mem w hv, hl, lift e hg⟩
  · rcases List.mem_cons.mp hv with rfl | hv
    · exact ⟨id, hf, here⟩
    · obtain ⟨j, hj, hg⟩ := h.leavers v hv hl
      have e : id ≠ j := fun e => by
        subst e
        rw [record] at hj
        cases hj
      exact ⟨j, other j e ▸ hj, lift e hg⟩
  · by_cases e : w.requester = p ∧ w.tag = tag
    · exact .inr ⟨w, List.mem_cons_self, e.1, e.2, left⟩
    · rw [← (board_grantWaiter hf w p tag).trans (if_neg e)]
      exact (h.board p tag).imp_right fun ⟨v, hv, k⟩ => ⟨v, List.mem_cons_of_mem w hv, k⟩
  · rw [h.tombstones, port_grantWaiter hf]
    split <;> rfl
  · rw [h.flags e he, flagged_grantWaiter id w s he]

theorem scanWalk_walked (ahead ws : List Waiter) (s : State) (h : KeysUnique (ahead ++ ws)) :
    Walked ws s (scanWalk ahead ws s) := by
  induction ws generalizing ahead s with
  | nil => exact .stop rfl rfl rfl nofun
  | cons w ws ih =>
    have pass : Walked (w :: ws) s (scanWalk (ahead ++ [w]) ws s) :=
      (ih (ahead ++ [w]) s (by simpa using h)).pass ((ahead_scanWalk_sublist (ahead ++ [w]) ws s).subset (by simp))
    unfold scanWalk
    split
    · exact pass
    split
    · exact pass
    split
    · exact .stop rfl rfl rfl fun v hv => List.mem_append_right _ hv
    · next id hid =>
      have hf := lowestFree_state hid
      have record : ((s.grantWaiter id w).lease id).state = .held := by rw [lease_grantWaiter, if_pos rfl]
      obtain ⟨_, hws, hcross⟩ := List.pairwise_append.mp h
      obtain ⟨hn, _⟩ := List.pairwise_cons.mp hws
      refine (ih ahead _ (h.sublist (List.Sublist.append_left (List.sublist_cons_self w ws) ahead))).grant hf
        (lease_scanWalk_of_ne_free _ _ _ _ (by rw [record]; decide)) (fun v hv k => hn v hv ⟨k.1.symm, k.2.symm⟩) ?_
      intro v hv k
      rcases List.mem_append.mp ((waiters_scanWalk_sublist ahead ws _).subset hv) with hv | hv
      · exact hcross v hv w List.mem_cons_self k
      · exact hn v hv ⟨k.1.symm, k.2.symm⟩

theorem grantScan_walked {s : State} (h : KeysUnique s.le.waiters) : Walked s.le.waiters s s.grantScan :=
  scanWalk_walked [] _ s h

theorem settle_walked (before : State) {s : State} (h : KeysUnique s.le.waiters) :
    Walked s.le.waiters s (before.settle s) := by
  unfold State.settle
  split
  · exact grantScan_walked h
  · exact .stop rfl rfl rfl fun _ hw => hw

theorem lease_settle_of_ne_free (before s : State) (id : LeaseId) (h : (s.lease id).state ≠ .free) :
    (before.settle s).lease id = s.lease id := by
  unfold State.settle
  split
  · exact lease_grantScan_of_ne_free s id h
  · rfl

theorem waiters_settle_sublist (before s : State) : (before.settle s).le.waiters.Sublist s.le.waiters := by
  unfold State.settle
  split
  · exact waiters_grantScan_sublist s
  · exact .refl _

/-! ## What a scan leaves -/

/-- R96: waiter `w` cannot be granted, with `ahead` the waiters before it. -/
abbrev Blocked (t : State) (ahead : List Waiter) (w : Waiter) : Prop :=
  (t.region w.region).state = .suspended ∨ t.conflictsLive w.range w.mode = true ∨
  conflictsWaiter ahead w.range w.mode = true ∨ t.lowestFree = none

theorem conflictsLive_iff {s : State} {q : AddrRange} {m : Mode} :
    s.conflictsLive q m = true ↔
      ∃ id : LeaseId, (s.lease id).live = true ∧ conflict (s.lease id).range (s.lease id).mode q m = true := by
  unfold State.conflictsLive
  rw [any_allLeases]
  simp only [Bool.and_eq_true]

/-- A conflict with a live lease stays through a scan, which leaves live leases as they are. -/
theorem conflictsLive_scanWalk (ahead ws : List Waiter) {s : State} {q : AddrRange} {m : Mode}
    (h : s.conflictsLive q m = true) : (scanWalk ahead ws s).conflictsLive q m = true := by
  rw [conflictsLive_iff] at h ⊢
  obtain ⟨id, hl, hc⟩ := h
  have hne : (s.lease id).state ≠ .free := fun hf => by simp [Lease.live, hf] at hl
  exact ⟨id, by rw [lease_scanWalk_of_ne_free _ _ _ _ hne]; exact ⟨hl, hc⟩⟩

/-- R96: the walk leaves the waiters already passed at the head of the list. -/
theorem waiters_scanWalk_eq_append (ahead ws : List Waiter) (s : State) :
    ∃ rest, (scanWalk ahead ws s).le.waiters = ahead ++ rest := by
  induction ws generalizing ahead s with
  | nil => exact ⟨[], (List.append_nil ahead).symm⟩
  | cons w ws ih =>
    have pass : ∃ rest, (scanWalk (ahead ++ [w]) ws s).le.waiters = ahead ++ rest := by
      obtain ⟨rest, h⟩ := ih (ahead ++ [w]) s
      exact ⟨w :: rest, by simpa using h⟩
    unfold scanWalk
    split
    · exact pass
    split
    · exact pass
    split
    · exact ⟨w :: ws, rfl⟩
    · exact ih ahead _

/-- R96: every waiter that the walk leaves behind those already passed is blocked. -/
theorem scanWalk_blocked (ahead ws : List Waiter) (s : State) {pre post : List Waiter} {w : Waiter}
    (h : (scanWalk ahead ws s).le.waiters = pre ++ w :: post) (hlen : ahead.length ≤ pre.length) :
    Blocked (scanWalk ahead ws s) pre w := by
  induction ws generalizing ahead s with
  | nil =>
    have : ahead.length = pre.length + (post.length + 1) := by
      have := congrArg List.length h
      simpa [scanWalk] using this
    omega
  | cons v ws ih =>
    have pass : (s.region v.region).state = .suspended ∨ s.conflictsLive v.range v.mode = true ∨
        conflictsWaiter ahead v.range v.mode = true →
        (scanWalk (ahead ++ [v]) ws s).le.waiters = pre ++ w :: post →
        Blocked (scanWalk (ahead ++ [v]) ws s) pre w := by
      intro hb hsplit
      rcases Nat.lt_or_eq_of_le hlen with hlt | heq
      · exact ih _ s hsplit (by simpa using hlt)
      · obtain ⟨rest, hrest⟩ := waiters_scanWalk_eq_append (ahead ++ [v]) ws s
        rw [hsplit, List.append_assoc] at hrest
        obtain ⟨rfl, hv⟩ := List.append_inj hrest heq.symm
        cases hv
        rcases hb with hs | hc | hc
        · exact .inl (by rw [(scanWalk_leaseWork _ ws s).region]; exact hs)
        · exact .inr (.inl (conflictsLive_scanWalk _ ws hc))
        · exact .inr (.inr (.inl hc))
    unfold scanWalk at h ⊢
    split at h
    · next hs =>
      rw [if_pos hs]
      exact pass (.inl hs) h
    next hs =>
    rw [if_neg hs]
    split at h
    · next hc =>
      rw [if_pos hc]
      exact pass (.inr (by simpa using hc)) h
    next hc =>
    rw [if_neg hc]
    split at h
    · next hn => exact .inr (.inr (.inr hn))
    · exact ih ahead _ h hlen

theorem grantScan_done (s : State) : ScanDone s.grantScan :=
  fun _ _ _ h => scanWalk_blocked [] _ s h (Nat.zero_le _)

end Sys2Proof.Machine
end

section
/-! REGION_RETIRE (R22, R23, R90): the start of a retirement at the boards and the flags, its one grant scan, and its
completion where nothing of the slot is in flight or draining. -/

namespace Sys2Proof.Machine

open Sys2Proof.Safety Sys2Proof.Claims

/-! ## Boards and flags as waiters are dropped and leases revoked -/

/-- Waiter `w` waits under the tag `tag` of requester `p`. -/
abbrev Under (p : PortId) (tag : Tag) (w : Waiter) : Prop := w.requester = p ∧ w.tag = tag

theorem board_foldl_placeNotice (n : ClaimNotice) (l : List Waiter) (s : State) (p : PortId) (tag : Tag) :
    ((l.foldl (fun s w => s.placeNotice w.requester w.tag n) s).port p).board[tag] =
      if ∃ w ∈ l, Under p tag w then some n else (s.port p).board[tag] := by
  induction l generalizing s with
  | nil => simp
  | cons w l ih =>
    have placed : ((s.placeNotice w.requester w.tag n).port p).board[tag] =
        if Under p tag w then some n else (s.port p).board[tag] := by
      rw [port_placeNotice]
      by_cases hp : w.requester = p
      · rw [if_pos hp]
        change ((s.port p).board.set w.tag _)[tag] = _
        rw [vector_get_set]
        simp [Under, hp]
      · rw [if_neg hp, if_neg fun k => hp k.1]
    rw [List.foldl_cons, ih, placed]
    by_cases hl : ∃ v ∈ l, Under p tag v
    · simp only [List.mem_cons, exists_eq_or_imp, hl, or_true, if_true]
    · simp only [List.mem_cons, exists_eq_or_imp, hl, or_false, if_false]

/-- R89: dropping places one notice under the tag of each waiter dropped. -/
theorem board_dropWaiters (out : Waiter → Bool) (reason : DropReason) (s : State) (p : PortId) (tag : Tag) :
    ((s.dropWaiters out reason).port p).board[tag] =
      if ∃ w ∈ s.le.waiters, out w = true ∧ Under p tag w then some (.dropped reason) else (s.port p).board[tag] := by
  rw [State.dropWaiters, board_foldl_placeNotice]
  simp only [List.mem_filter, and_assoc, setWaiters_port]

theorem board_revokeAll (x : RevokeReason) (which : Lease → Bool) (s : State) (p : PortId) :
    ((s.revokeAll x which).port p).board = (s.port p).board :=
  revokeAll_keeps (fun s => (s.port p).board) (fun id l s => board_putLease id l s p) x which s

theorem mgp_revokeAll (x : RevokeReason) (which : Lease → Bool) (s : State) : (s.revokeAll x which).mgp = s.mgp :=
  revokeAll_keeps (·.mgp) mgp_putLease x which s

theorem mgp_dropWaiters (out : Waiter → Bool) (reason : DropReason) (s : State) : (s.dropWaiters out reason).mgp = s.mgp := by
  unfold State.dropWaiters
  generalize s.le.waiters.filter out = l
  change _ = (s.setWaiters (s.le.waiters.filter fun w => !out w)).mgp
  generalize s.setWaiters (s.le.waiters.filter fun w => !out w) = u
  induction l generalizing u with
  | nil => rfl
  | cons w l ih => exact ih _

/-- What the Lease Engine does in an event, as one equation. -/
theorem LeaseWork.eq {s t : State} (h : LeaseWork s t) :
    t = { s with
      le := { s.le with leases := t.le.leases, freeSlots := t.le.freeSlots, waiters := t.le.waiters }
      ptc := { s.ptc with ports := t.ptc.ports }
      mgp := { s.mgp with flags := t.mgp.flags } } := by
  obtain ⟨hmu, hdiv, hbsq, hthr, hlim, harr, hres, hmgp, hdraw, hin, hpend, _⟩ := h
  obtain ⟨mu, ⟨leases, freeSlots, waiters, nextArrival, resumeScans⟩, divider, bsq, ⟨ports, threshold, limit⟩, mgp, draws,
    inputs, pending⟩ := t
  cases hmu
  cases hdiv
  cases hbsq
  cases hthr
  cases hlim
  cases harr
  cases hres
  cases hdraw
  cases hin
  cases hpend
  exact congrArg (fun m => State.mk _ _ _ _ _ m _ _ _) hmgp

/-! ## The start of a retirement -/

theorem board_beginRetire (r : RegionId) (s : State) (p : PortId) (tag : Tag) :
    ((s.beginRetire r).port p).board[tag] =
      if ∃ w ∈ s.le.waiters, w.region = r ∧ Under p tag w then some (.dropped .regionGone)
      else (s.port p).board[tag] := by
  rw [State.beginRetire, board_dropWaiters, waiters_revokeAll]
  simp only [board_revokeAll, beq_iff_eq]
  rfl

theorem mgp_beginRetire (r : RegionId) (s : State) : (s.beginRetire r).mgp = (s.setRetiring r).mgp := by
  rw [State.beginRetire, mgp_dropWaiters, mgp_revokeAll]

theorem mem_waiters_beginRetire {r : RegionId} {s : State} {w : Waiter} :
    w ∈ (s.beginRetire r).le.waiters ↔ w ∈ s.le.waiters ∧ w.region ≠ r := by
  rw [waiters_beginRetire]
  simp

theorem Revoked_state (x : RevokeReason) (l : Lease) :
    (Revoked x l).state = if l.inFlight = true then .draining else .revoked := by
  unfold Revoked
  split <;> rfl

theorem Revoked_region (x : RevokeReason) (l : Lease) : (Revoked x l).region = l.region := by
  unfold Revoked
  split <;> rfl

theorem free_beginRetire {r : RegionId} {s : State} {id : LeaseId} (h : (s.lease id).state = .free) :
    (s.beginRetire r).lease id = s.lease id := by
  rw [lease_beginRetire, if_neg (by simp [h])]

theorem free_of_beginRetire {r : RegionId} {s : State} {id : LeaseId} (h : ((s.beginRetire r).lease id).state = .free) :
    (s.lease id).state = .free := by
  rw [lease_beginRetire] at h
  split at h
  · rw [Revoked_state] at h
    split at h <;> cases h
  · exact h

/-- R94: the start of a retirement that ends a live lease, or drops a waiter, calls for a scan. -/
theorem scanDue_beginRetire {r : RegionId} {s : State}
    (h : (∃ id : LeaseId, (s.lease id).state = .held ∧ (s.lease id).region = r ∧ (s.lease id).inFlight = false) ∨
      ∃ w ∈ s.le.waiters, w.region = r) :
    scanDue (s.setRetiring r) (s.beginRetire r) = true := by
  unfold scanDue
  rw [Bool.or_eq_true]
  rcases h with ⟨id, hh, hr, hf⟩ | ⟨w, hw, hr⟩
  · refine .inr (any_allLeases.mpr ⟨id, ?_⟩)
    have revoked : ((s.beginRetire r).lease id).state = .revoked := by
      rw [lease_beginRetire, if_pos ⟨hh, hr⟩, Revoked_state, hf]
      rfl
    simp [slotTriggers, Lease.live, hh, revoked]
  · left
    have fewer : (s.beginRetire r).le.waiters.length < s.le.waiters.length := by
      rw [waiters_beginRetire]
      exact List.length_filter_lt_length_iff_exists.mpr ⟨w, hw, by simp [hr]⟩
    exact bne_iff_ne.mpr fewer.ne'

/-! ## The retirement up to its completion test -/

/-- R22, R90: the retire request whole, with its grant scan. -/
def State.retiringState (r : RegionId) (s : State) : State := (s.setRetiring r).settle (s.beginRetire r)

section Retiring

variable {s : State} {r : RegionId}

theorem retiringState_leaseWork (r : RegionId) (s : State) : LeaseWork (s.setRetiring r) (s.retiringState r) :=
  settle_leaseWork _ (beginRetire_leaseWork r s)

theorem mem_waiters_retiringState {w : Waiter} (h : w ∈ (s.retiringState r).le.waiters) :
    w ∈ s.le.waiters ∧ w.region ≠ r :=
  mem_waiters_beginRetire.mp ((waiters_settle_sublist _ _).subset h)

theorem waiters_retiringState_sublist (r : RegionId) (s : State) :
    (s.retiringState r).le.waiters.Sublist s.le.waiters :=
  (waiters_settle_sublist _ _).trans (by rw [waiters_beginRetire]; exact List.filter_sublist)

/-- Slots in use keep the record that the start of the retirement gave them. -/
theorem lease_retiringState {id : LeaseId} (h : (s.lease id).state ≠ .free) :
    (s.retiringState r).lease id = (s.beginRetire r).lease id :=
  lease_settle_of_ne_free _ _ id fun k => h (free_of_beginRetire k)

/-- A grant by the scan of a retirement is one of a waiter, from the state before it. -/
theorem grantedTo_of_beginRetire {t : State} {w : Waiter} {id : LeaseId} (hf : (s.lease id).state = .free)
    (h : GrantedTo (s.beginRetire r) t w id) : GrantedTo s t w id := by
  obtain ⟨hl, hb⟩ := h
  have same := free_beginRetire (r := r) hf
  refine ⟨hl.trans (GrantRecord_eq same ?_), by rw [hb, same]⟩
  rw [region_beginRetire]
  split <;> rfl

variable (hk : KeysUnique s.le.waiters)
include hk

theorem keysUnique_beginRetire : KeysUnique (s.beginRetire r).le.waiters := by
  rw [waiters_beginRetire]
  exact hk.sublist List.filter_sublist

theorem retiringState_walked : Walked (s.beginRetire r).le.waiters (s.beginRetire r) (s.retiringState r) :=
  settle_walked _ (keysUnique_beginRetire hk)

/-- R90: a waiter of the slot has left, and holds its notice. -/
theorem waiter_dropped {w : Waiter} (hw : w ∈ s.le.waiters) (hr : w.region = r) :
    ((s.retiringState r).port w.requester).board[w.tag] = some (.dropped .regionGone) ∧ Left (s.retiringState r) w := by
  have alone : ∀ v ∈ s.le.waiters, v.region ≠ r → ¬(v.requester = w.requester ∧ v.tag = w.tag) := fun v hv hne k =>
    hne (KeysUnique.eq hk hv hw k ▸ hr)
  constructor
  · rcases (retiringState_walked (r := r) hk).board w.requester w.tag with hb | ⟨v, hv, hp, ht, _⟩
    · rw [hb, board_beginRetire, if_pos ⟨w, hw, hr, rfl, rfl⟩]
    · obtain ⟨hv, hne⟩ := mem_waiters_beginRetire.mp hv
      exact absurd ⟨hp, ht⟩ (alone v hv hne)
  · intro v hv
    obtain ⟨hv, hne⟩ := mem_waiters_retiringState hv
    exact alone v hv hne

theorem retiringState_scanned : Scanned s (s.retiringState r) (fun w => w.region = r) := by
  have walked := retiringState_walked (r := r) hk
  refine ⟨waiters_retiringState_sublist r s, fun id hf => ?_, fun w hw left hne => ?_⟩
  · have same := free_beginRetire (r := r) hf
    rcases walked.grants id (by rw [same]; exact hf) with h | ⟨w, hw, left, hg⟩
    · exact .inl (h.trans same)
    · exact .inr ⟨w, (mem_waiters_beginRetire.mp hw).1, left, grantedTo_of_beginRetire hf hg⟩
  · obtain ⟨id, hf, hg⟩ := walked.leavers w (mem_waiters_beginRetire.mpr ⟨hw, hne⟩) left
    exact ⟨id, grantedTo_of_beginRetire (free_of_beginRetire hf) hg⟩

theorem retiringState_boardKept (p : PortId) : BoardKept s (s.retiringState r) p := by
  intro tag
  rcases (retiringState_walked (r := r) hk).board p tag with hb | ⟨w, hw, hp, ht, left⟩
  · rw [hb, board_beginRetire]
    split
    · next h =>
      obtain ⟨w, hw, hr, rfl, rfl⟩ := h
      exact .inr ⟨w, hw, rfl, rfl, (waiter_dropped hk hw hr).2⟩
    · exact .inl rfl
  · exact .inr ⟨w, (mem_waiters_beginRetire.mp hw).1, hp, ht, left⟩

theorem retiringState_flags (e : Event) (he : e ≠ .slotsLow) : (s.retiringState r).flagged e = s.flagged e := by
  rw [(retiringState_walked (r := r) hk).flags e he, State.flagged, mgp_beginRetire]
  rfl

/-- R23: a lease of the slot drains after the retire request where it drained before, or was HELD with an access in
flight. -/
theorem draining_retiringState (id : LeaseId) :
    (((s.retiringState r).lease id).state = .draining ∧ ((s.retiringState r).lease id).region = r) ↔
      (s.lease id).region = r ∧
        ((s.lease id).state = .draining ∨ ((s.lease id).state = .held ∧ (s.lease id).inFlight = true)) := by
  by_cases hf : (s.lease id).state = .free
  · have notDraining : ((s.retiringState r).lease id).state ≠ .draining := by
      rcases (retiringState_scanned (r := r) hk).2.1 id hf with h | ⟨w, _, _, hg, _⟩
      · rw [h, hf]
        decide
      · rw [hg]
        exact fun k => nomatch k
    simp [notDraining, hf]
  · rw [lease_retiringState hf, lease_beginRetire]
    split
    · next h =>
      obtain ⟨hh, hr⟩ := h
      rw [Revoked_state, Revoked_region]
      cases hx : (s.lease id).inFlight <;> simp [hh, hr]
    · next h =>
      constructor
      · rintro ⟨hd, hr⟩
        exact ⟨hr, .inl hd⟩
      · rintro ⟨hr, hd | ⟨hh, _⟩⟩
        · exact ⟨hd, hr⟩
        · exact absurd ⟨hh, hr⟩ h

/-- R22, R23: what the retirement of slot `r` waits for. -/
abbrev RetireWaits (s : State) (r : RegionId) : Prop :=
  0 < (s.region r).inFlight ∨ ∃ id : LeaseId, (s.lease id).region = r ∧
    ((s.lease id).state = .draining ∨ ((s.lease id).state = .held ∧ (s.lease id).inFlight = true))

theorem retireDone_retiringState : (s.retiringState r).retireDone r = true ↔ ¬RetireWaits s r := by
  have region : (s.retiringState r).region r = { s.region r with state := .retiring } := by
    rw [(retiringState_leaseWork r s).region, setRetiring_region, if_pos rfl]
  rw [retireDone_iff, region, not_or, not_exists]
  simp only [draining_retiringState hk, true_and]
  exact and_congr_left fun _ => (by omega)

end Retiring

/-! ## Its completion -/

theorem retireTest_of_waits {s : State} {r : RegionId} (hk : KeysUnique s.le.waiters) (h : RetireWaits s r) :
    (s.retiringState r).retireTest r = s.retiringState r :=
  if_neg fun k => (retireDone_retiringState hk).mp k h

theorem retireTest_of_not_waits {s : State} {r : RegionId} (hk : KeysUnique s.le.waiters) (h : ¬RetireWaits s r) :
    (s.retiringState r).retireTest r =
      ((s.retiringState r).updRegion r fun d => { d with state := .invalid }).finish 6#4 .ok :=
  if_pos ((retireDone_retiringState hk).mpr h)

/-- The completion test leaves LE and PTC as they are. -/
theorem retireTest_frame (r : RegionId) (s : State) : (s.retireTest r).le = s.le ∧ (s.retireTest r).ptc = s.ptc := by
  unfold State.retireTest
  split
  · exact ⟨rfl, rfl⟩
  · exact ⟨rfl, rfl⟩

theorem region_retireTest_ne {r k : RegionId} (h : r ≠ k) (s : State) : (s.retireTest r).region k = s.region k := by
  unfold State.retireTest
  split
  · rw [finish_region, region_updRegion, if_neg h]
  · rfl

/-! A state with the Lease Engine and the ports of another is as it to all that a scan says. -/

section SameRecords

variable {s t u : State} (hl : t.le = u.le)
include hl

theorem left_of_eq {w : Waiter} (h : Left u w) : Left t w := fun v hv => h v (hl ▸ hv)

variable (hp : t.ptc = u.ptc)
include hp

theorem boardKept_of_eq {p : PortId} (h : BoardKept s u p) : BoardKept s t p := by
  have port : t.port p = u.port p := by unfold State.port; rw [hp]
  intro tag
  rw [port]
  exact (h tag).imp_right fun ⟨w, hw, hr, ht, left⟩ => ⟨w, hw, hr, ht, left_of_eq hl left⟩

theorem scanned_of_eq {gone : Waiter → Prop} (h : Scanned s u gone) : Scanned s t gone := by
  have lease : ∀ id, t.lease id = u.lease id := fun id => by unfold State.lease; rw [hl]
  have grantedTo : ∀ {w id}, GrantedTo s u w id → GrantedTo s t w id := fun {w id} hg => by
    have port : t.port w.requester = u.port w.requester := by unfold State.port; rw [hp]
    rw [GrantedTo, lease, port]
    exact hg
  obtain ⟨hsub, hfree, hleft⟩ := h
  refine ⟨by rw [hl]; exact hsub, fun id hf => ?_, fun w hw left hne => ?_⟩
  · rw [lease]
    exact (hfree id hf).imp_right fun ⟨w, hw, left, hg⟩ => ⟨w, hw, left_of_eq hl left, grantedTo hg⟩
  · obtain ⟨id, hg⟩ := hleft w hw (left_of_eq hl.symm left) hne
    exact ⟨id, grantedTo hg⟩

end SameRecords

/-- R96: whether a waiter is blocked does not depend on the state of another slot. -/
theorem scanDone_of_eq {s t : State} (hl : t.le = s.le) (hr : ∀ w ∈ s.le.waiters, t.region w.region = s.region w.region)
    (h : ScanDone s) : ScanDone t := by
  have lease : ∀ id, t.lease id = s.lease id := fun id => by unfold State.lease; rw [hl]
  intro pre post w hw
  rw [hl] at hw
  have hm : w ∈ s.le.waiters := by rw [hw]; simp
  have blocked := h pre post w hw
  simp only [State.conflictsLive, State.lowestFree, lease, hr w hm] at blocked ⊢
  exact blocked

theorem mu_retireTest {s : State} {r : RegionId} (hk : KeysUnique s.le.waiters) [Decidable (RetireWaits s r)] :
    ((s.retiringState r).retireTest r).mu = { s.mu with regions := s.mu.regions.set r { s.region r with
      state := if RetireWaits s r then .retiring else .invalid } } := by
  have mu := (retiringState_leaseWork r s).mu
  by_cases h : RetireWaits s r
  · rw [retireTest_of_waits hk h, mu, if_pos h]
    rfl
  · rw [retireTest_of_not_waits hk h, if_neg h, finish_mu]
    unfold State.updRegion
    simp only [mu]
    unfold State.setRetiring State.updRegion
    simp [State.region]

/-- R90, R96: where the retirement ended a live lease or dropped a waiter, the scan has left nothing it could grant. -/
theorem scanDone_retireTest {s : State} {r : RegionId}
    (h : (∃ id : LeaseId, (s.lease id).state = .held ∧ (s.lease id).region = r ∧ (s.lease id).inFlight = false) ∨
      ∃ w ∈ s.le.waiters, w.region = r) : ScanDone ((s.retiringState r).retireTest r) := by
  have scanned : s.retiringState r = (s.beginRetire r).grantScan := if_pos (scanDue_beginRetire h)
  refine scanDone_of_eq (retireTest_frame r _).1 (fun w hw => ?_) (scanned ▸ grantScan_done _)
  exact region_retireTest_ne (mem_waiters_retiringState hw).2.symm _

/-- R22: a retirement that waits leaves the unit RUNNING, with no flag raised but SLOTS_LOW. -/
theorem quiet_of_waits {s : State} {r : RegionId} (hk : KeysUnique s.le.waiters) (h : RetireWaits s r) :
    Quiet { s with mu := ((s.retiringState r).retireTest r).mu, mgp := { s.mgp with unit := .retiring r } }
      ((s.retiringState r).retireTest r) [.slotsLow] := by
  rw [retireTest_of_waits hk h]
  have work := retiringState_leaseWork r s
  refine ⟨?_, fun e he => retiringState_flags hk e (by simpa using he)⟩
  have same := work.eq
  rw [← work.mu] at same
  exact same

/-- R178: a completion raises CMD_DONE and leaves every other flag. -/
theorem flagged_finish (s : State) (code : BitVec 4) (result : HostResult) (e : Event) :
    (s.finish code result).flagged e = (s.flagged e || Event.cmdDone.mask.getLsbD e.bit) := BitVec.getLsbD_or

/-- R23: a retirement that waits for nothing completes in the event that took it. -/
theorem quiet_of_not_waits {s : State} {r : RegionId} (hk : KeysUnique s.le.waiters) (h : ¬RetireWaits s r) :
    Quiet { s with mu := ((s.retiringState r).retireTest r).mu, mgp := (s.finish 6#4 .ok).mgp }
      ((s.retiringState r).retireTest r) [.slotsLow] := by
  have start := retiringState_leaseWork r s
  rw [retireTest_of_not_waits hk h]
  have work : LeaseWork
      { s with
        mu := (((s.retiringState r).updRegion r fun d => { d with state := .invalid }).finish 6#4 .ok).mu
        mgp := (s.finish 6#4 .ok).mgp }
      (((s.retiringState r).updRegion r fun d => { d with state := .invalid }).finish 6#4 .ok) :=
    { mu := rfl
      divider := start.divider
      bsq := start.bsq
      threshold := start.threshold
      limit := start.limit
      nextArrival := start.nextArrival
      resumeScans := start.resumeScans
      mgp := congrArg
        (fun m : Management => { m with
          hostStatus := { code := 6#4, result := .ok }, unit := .idle
          flags := (s.retiringState r).mgp.flags ||| Event.cmdDone.mask })
        start.mgp
      freeDraws := start.freeDraws
      inputs := start.inputs
      pending := start.pending
      port := start.port }
  refine ⟨work.eq, fun e he => ?_⟩
  have kept := retiringState_flags (r := r) hk e (by simpa using he)
  rw [flagged_finish]
  exact (congrArg (· || Event.cmdDone.mask.getLsbD e.bit) kept).trans (flagged_finish s 6#4 .ok e).symm

/-- A scan does not depend on the code taken into HOST_CMD. -/
theorem scanned_takeCode {code : BitVec 4} {s t : State} {gone : Waiter → Prop} (h : Scanned (s.takeCode code) t gone) :
    Scanned s t gone := h

/-- Settles O37: the start of the retirement slot by slot, the scan along its walk, and the completion test by what the
retirement waits for. -/
theorem regionRetireEmptiesTheSlot : Obligations.RegionRetireEmptiesTheSlot := by
  intro s r hu hr hunique
  have hk : KeysUnique (s.takeCode 6#4).le.waiters := hunique.1
  have taken : exec .regionRetire s = .next ((s.takeCode 6#4).hostRegionRetire s.mgp.hostArg) :=
    congrArg _ (hostCommand_of_idle hu 6#4)
  rw [taken]
  unfold State.hostRegionRetire
  rw [argFin_of_eq hr]
  dsimp only
  refine ⟨fun h => ?_, fun h => ⟨((s.takeCode 6#4).retiringState r).retireTest r, congrArg _ (if_pos h), ?_⟩⟩
  · rw [if_neg (by rcases h with h | h <;> simp [h])]
    rfl
  obtain ⟨hle, hptc⟩ := retireTest_frame r ((s.takeCode 6#4).retiringState r)
  have lease : ∀ id, (((s.takeCode 6#4).retiringState r).retireTest r).lease id =
      ((s.takeCode 6#4).retiringState r).lease id := fun id => by unfold State.lease; rw [hle]
  have port : ∀ p, (((s.takeCode 6#4).retiringState r).retireTest r).port p =
      ((s.takeCode 6#4).retiringState r).port p := fun p => by unfold State.port; rw [hptc]
  refine ⟨?mu, ?held, ?others, ?dropped, ?left, ?scanned, ?done, ?ports, ?waits, ?completes⟩
  case mu => exact mu_retireTest hk
  case held =>
    intro id hh hid
    rw [lease, lease_retiringState (by simp [hh]), lease_beginRetire]
    exact if_pos ⟨hh, hid⟩
  case others =>
    intro id hf hid
    rw [lease, lease_retiringState (by exact hf), lease_beginRetire]
    exact if_neg hid
  case dropped =>
    intro w hw hwr
    obtain ⟨hboard, hleft⟩ := waiter_dropped hk hw hwr
    exact ⟨by rw [port]; exact hboard, left_of_eq hle hleft⟩
  case left =>
    intro w hw
    rw [hle] at hw
    exact (mem_waiters_retiringState hw).2
  case scanned =>
    have scanned := retiringState_scanned (r := r) hk
    exact scanned_takeCode (scanned_of_eq hle hptc scanned)
  case done => exact scanDone_retireTest (s := s.takeCode 6#4)
  case ports =>
    intro p
    refine ⟨?_, boardKept_of_eq hle hptc (retiringState_boardKept hk p)⟩
    rw [port]
    exact (retiringState_leaseWork r (s.takeCode 6#4)).port p
  case waits => exact quiet_of_waits (s := s.takeCode 6#4) (r := r) hk
  case completes => exact quiet_of_not_waits (s := s.takeCode 6#4) (r := r) hk

end Sys2Proof.Machine
end

section
/-! What an event of one requester leaves of the other ports, of its own access record, of the map and of the bus. -/

namespace Sys2Proof.Machine

/-- Nothing of a port other than `p` changes but its notices and its tombstone count. -/
def OthersKept (p : PortId) (s t : State) : Prop :=
  ∀ q : PortId, q ≠ p → t.port q = { s.port q with board := (t.port q).board, tombstones := (t.port q).tombstones }

namespace OthersKept

theorem refl (p : PortId) (s : State) : OthersKept p s s := fun _ _ => rfl

theorem trans {p : PortId} {s t u : State} (h : OthersKept p s t) (k : OthersKept p t u) : OthersKept p s u :=
  fun q hq => by rw [k q hq, h q hq]

theorem of_leaseWork {s t : State} (p : PortId) (h : LeaseWork s t) : OthersKept p s t := fun q _ => h.port q

theorem updPort (p : PortId) (f : Port → Port) (s : State) : OthersKept p s (s.updPort p f) := fun q hq => by
  rw [port_updPort_ne s f hq.symm]

end OthersKept

/-- What an event of requester `p` leaves, short of accepting an access. -/
structure RequesterWork (p : PortId) (s t : State) : Prop where
  mu : t.mu = s.mu
  bsq : t.bsq = s.bsq
  access : (t.port p).access = (s.port p).access
  others : OthersKept p s t

namespace RequesterWork

variable {p : PortId}

theorem refl (s : State) : RequesterWork p s s := ⟨rfl, rfl, rfl, .refl p s⟩

theorem trans {s t u : State} (h : RequesterWork p s t) (k : RequesterWork p t u) : RequesterWork p s u where
  mu := k.mu.trans h.mu
  bsq := k.bsq.trans h.bsq
  access := k.access.trans h.access
  others := h.others.trans k.others

theorem of_leaseWork {s t : State} (h : LeaseWork s t) : RequesterWork p s t :=
  ⟨h.mu, h.bsq, h.access p, .of_leaseWork p h⟩

theorem updPort (f : Port → Port) (s : State) (h : ∀ x : Port, (f x).access = x.access) :
    RequesterWork p s (s.updPort p f) where
  mu := rfl
  bsq := rfl
  access := by rw [port_updPort_self, h]
  others := .updPort p f s

theorem answer (x : Answer) (s : State) : RequesterWork p s (s.answer p x) := .updPort _ s fun _ => rfl

theorem updRequester (f : Requester → Requester) (s : State) : RequesterWork p s (s.updRequester p f) :=
  .updPort _ s fun _ => rfl

end RequesterWork

/-! ## Faults and lease commands -/

theorem enterBarring_requesterWork (p : PortId) (s : State) : RequesterWork p s (s.enterBarring p) :=
  .trans (.updRequester _ s) (.of_leaseWork (raise_leaseWork _ _))

theorem countFault_requesterWork (p : PortId) (s : State) : RequesterWork p s (s.countFault p) := by
  unfold State.countFault
  dsimp only
  split
  · exact .trans (.updRequester _ s)
      (.trans (enterBarring_requesterWork p _) (.of_leaseWork (barRequest_leaseWork _ _)))
  · exact .updRequester _ s

theorem enterWaiter_requesterWork (p : PortId) (w : Waiter) (s : State) : RequesterWork p s (s.enterWaiter w) :=
  ⟨rfl, rfl, rfl, fun _ _ => rfl⟩

theorem leClaim_requesterWork (p : PortId) (w0 w1 w2 : Word) (s : State) :
    RequesterWork p s (s.leClaim p w0 w1 w2).1 := by
  have weighed : ∀ w : Waiter, RequesterWork p s (s.weighClaim w).1 := by
    intro w
    unfold State.weighClaim
    dsimp only
    split
    · exact .of_leaseWork (grantLease_leaseWork ..)
    split
    · exact .refl s
    · exact (enterWaiter_requesterWork p w s).trans (.of_leaseWork (settle_leaseWork s (.refl _)))
  unfold State.leClaim
  split
  · split
    · exact .refl s
    · exact weighed _
  · exact .refl s

theorem leRenew_requesterWork (p : PortId) (w0 : Word) (s : State) : RequesterWork p s (s.leRenew p w0).1 := by
  unfold State.leRenew
  dsimp only
  split
  · exact .refl s
  split
  · split
    · exact .of_leaseWork (settle_leaseWork s ((putLease_leaseWork _ _ s).trans (revoke_leaseWork _ _ _)))
    · exact .of_leaseWork (putLease_leaseWork _ _ s)
  split
  · exact .refl s
  · dsimp only
    exact .trans (.of_leaseWork (putLease_leaseWork _ _ s)) (.updRequester _ _)

theorem leRelease_leaseWork (p : PortId) (w0 : Word) (s : State) : LeaseWork s (s.leRelease p w0).1 := by
  have free : LeaseWork s (s.settle (s.freeLease (reqLease w0))) := settle_leaseWork s (freeLease_leaseWork _ s)
  unfold State.leRelease
  dsimp only
  split
  · exact .refl s
  split
  · exact .refl s
  split
  · exact free
  · exact free
  · exact .refl s
  · exact .refl s

theorem leUpgrade_leaseWork (p : PortId) (w0 : Word) (s : State) : LeaseWork s (s.leUpgrade p w0).1 := by
  unfold State.leUpgrade
  dsimp only
  split
  · exact .refl s
  split
  · exact .refl s
  split
  · exact .refl s
  split
  · exact .refl s
  split
  · exact .refl s
  split
  · exact .refl s
  · exact putLease_leaseWork _ _ s

theorem leDowngrade_leaseWork (p : PortId) (w0 : Word) (s : State) : LeaseWork s (s.leDowngrade p w0).1 := by
  unfold State.leDowngrade
  dsimp only
  split
  · exact .refl s
  split
  · exact settle_leaseWork s (putLease_leaseWork _ _ s)
  · exact .refl s

theorem leWithdraw_leaseWork (p : PortId) (w0 : Word) (s : State) : LeaseWork s (s.leWithdraw p w0).1 := by
  unfold State.leWithdraw
  dsimp only
  split
  · exact settle_leaseWork s (removeWaiters_leaseWork _ s)
  · exact .refl s

theorem leCommand_requesterWork (p : PortId) (s : State) : RequesterWork p s (s.leCommand p).1 := by
  unfold State.leCommand
  dsimp only
  split
  · exact .refl s
  split
  · exact leClaim_requesterWork p _ _ _ s
  · exact leRenew_requesterWork p _ s
  · exact .of_leaseWork (leRelease_leaseWork p _ s)
  · exact .of_leaseWork (leUpgrade_leaseWork p _ s)
  · exact .of_leaseWork (leDowngrade_leaseWork p _ s)
  · exact .of_leaseWork (leWithdraw_leaseWork p _ s)
  · exact .refl s
  · exact .refl s
  · exact .refl s

theorem placeReply_requesterWork (p : PortId) (r : Reply) (s : State) : RequesterWork p s (s.placeReply p r) :=
  .updPort _ s fun _ => rfl

theorem submit_requesterWork (p : PortId) (s : State) : RequesterWork p s (s.submit p) := by
  have answered : RequesterWork p s (((s.leCommand p).1.placeReply p (s.leCommand p).2).answer p .writeDone) :=
    ((leCommand_requesterWork p s).trans (placeReply_requesterWork p _ _)).trans (.answer _ _)
  unfold State.submit
  dsimp only
  split
  · exact answered.trans (countFault_requesterWork p _)
  · exact answered

/-! ## Accesses -/

theorem windowRead_requesterWork (p : PortId) (w : WindowSlot) (s : State) : RequesterWork p s (s.windowRead p w) := by
  have notice : ∀ q : Port, q.takeNotice.access = q.access := fun q => by
    unfold Port.takeNotice
    split <;> rfl
  unfold State.windowRead
  split
  · exact .updPort _ s fun _ => rfl
  · exact .updPort _ s fun _ => rfl
  · exact .updPort _ s notice
  all_goals exact .refl s

theorem writeRequest_requesterWork (p : PortId) (k : Fin 4) (be : BitVec 4) (data : Word) (s : State) :
    RequesterWork p s (s.writeRequest p k be data) := by
  unfold State.writeRequest
  exact .updPort _ s fun _ => rfl

theorem windowAccess_requesterWork (p : PortId) (a : Presentation) (s : State) :
    RequesterWork p s (s.windowAccess p a) := by
  unfold State.windowAccess
  dsimp only
  split
  · exact (windowRead_requesterWork p _ s).trans (.answer _ _)
  split
  · exact (writeRequest_requesterWork p _ _ _ s).trans (.answer _ _)
  · exact submit_requesterWork p s
  all_goals exact .answer _ s

theorem refuse_requesterWork (p : PortId) (a : Presentation) (f : FaultReason) (s : State) :
    RequesterWork p s (s.refuse p a f) := by
  have recorded : RequesterWork p s (s.updPort p fun q =>
      { q with answer := some .busError
               lastFault := { reason := some f, addr := a.addr, dir := a.dir, width := enabledCount a.be } }) :=
    .updPort _ s fun _ => rfl
  unfold State.refuse
  dsimp only
  split
  · exact recorded.trans (countFault_requesterWork p _)
  · exact recorded

theorem accept_othersKept (p : PortId) (a : Presentation) (region : Option RegionId)
    (lease : Option (LeaseId × Generation)) (cycle : CycleFields) (s : State) :
    OthersKept p s (s.accept p a region lease cycle) := by
  unfold State.accept
  dsimp only
  refine .trans ?_ (.updPort p _ _)
  have put : ∀ (id : LeaseId) (l : Lease) (u : State), OthersKept p u (u.putLease id l) := fun id l u =>
    .of_leaseWork p (putLease_leaseWork id l u)
  cases region with
  | none =>
    cases lease with
    | none => exact .refl p s
    | some l => exact put l.1 _ s
  | some r =>
    cases lease with
    | none => exact fun _ _ => rfl
    | some l => exact OthersKept.trans (fun _ _ => rfl) (put l.1 _ (s.updRegion r _))

theorem carryOut_othersKept (p : PortId) (a : Presentation) (s : State) : OthersKept p s (s.carryOut p a) := by
  unfold State.carryOut
  split
  · exact (refuse_requesterWork p a _ s).others
  · exact (windowAccess_requesterWork p a s).others
  · exact accept_othersKept p a _ _ _ s

theorem takeStanding_othersKept (p : PortId) (s : State) : OthersKept p s (s.takeStanding p) := by
  unfold State.takeStanding
  split
  · exact (OthersKept.updPort p _ s).trans (carryOut_othersKept p _ _)
  · exact .refl p s

theorem present_othersKept (p : PortId) (a : Presentation) (s : State) : OthersKept p s (s.present p a) := by
  refine (takeStanding_othersKept p s).trans ?_
  unfold State.present
  dsimp only
  split
  · exact carryOut_othersKept p a _
  · exact .updPort p _ _

theorem submitRow_othersKept (code : Nat) (p : PortId) (be : BitVec 4) (data : Word) (s : State) :
    OthersKept p s (s.submitRow code p be data) := by
  unfold State.submitRow
  split
  · exact present_othersKept p _ s
  · exact .refl p s

theorem deassertReset_othersKept (p : PortId) (s : State) : OthersKept p s (s.deassertReset p) :=
  (OthersKept.updPort p _ s).trans (takeStanding_othersKept p _)

/-- R141 to R153: a command of requester `p` leaves the other ports as they are, but for notices and tombstones. -/
theorem exec_othersKept {c : Instr} {p : PortId} {s t : State} (hp : Claims.senderOf c = some p) (h : exec c s = .next t) :
    OthersKept p s t := by
  cases c <;> cases hp <;> cases h
  case rqrstDeassertion => exact deassertReset_othersKept _ s
  case accessArrival | requestWrite | resultRead | portStatusRead | noticeRead => exact present_othersKept _ _ s
  all_goals exact submitRow_othersKept _ _ _ _ s

/-- Settles O50: what stays of the other ports holds every record but the notices and the tombstone count. -/
theorem portsAreSeparate : Obligations.PortsAreSeparate := by
  intro s t c p q hp hq h
  rw [exec_othersKept hp h q hq]
  exact ⟨rfl, rfl, rfl, rfl, rfl, rfl⟩

end Sys2Proof.Machine
end

section
/-! SUPPORT. Accesses in flight (R25, R41, R76, R118): what a change of a lease record keeps of the access under it, and the
operations that neither begin nor end an access. -/

namespace Sys2Proof.Machine

open Sys2Proof.Safety Sys2Proof.Claims

/-! ## One lease record -/

/-- No access is in flight under the lease, and it waits for the end of none. -/
def Landed (l : Lease) : Prop := l.inFlight = false ∧ l.state ≠ .draining

/-- R41: a change of a lease record that neither begins nor ends an access under it. -/
structure KeepsFlight (l l' : Lease) : Prop where
  aloft : l.inFlight = true → l.live = true →
    l'.inFlight = true ∧ l'.live = true ∧ l'.generation = l.generation ∧ l'.holder = l.holder
  grounded : l.inFlight = false → l'.inFlight = false
  draining : (l.state = .draining → l.inFlight = true) → l'.state = .draining → l'.inFlight = true

namespace KeepsFlight

theorem refl (l : Lease) : KeepsFlight l l := ⟨fun h k => ⟨h, k, rfl, rfl⟩, id, id⟩

theorem trans {l l' l'' : Lease} (h : KeepsFlight l l') (k : KeepsFlight l' l'') : KeepsFlight l l'' where
  aloft hf hl := by
    obtain ⟨hf', hl', hg, hh⟩ := h.aloft hf hl
    obtain ⟨hf'', hl'', hg', hh'⟩ := k.aloft hf' hl'
    exact ⟨hf'', hl'', hg'.trans hg, hh'.trans hh⟩
  grounded hf := k.grounded (h.grounded hf)
  draining hd := k.draining (h.draining hd)

/-- A change of other fields, which may let a live lease with an access in flight drain. -/
theorem of_same {l l' : Lease} (hf : l'.inFlight = l.inFlight) (hg : l'.generation = l.generation)
    (hh : l'.holder = l.holder) (hl : l.live = true → l'.live = true)
    (hd : l'.state = .draining → l.inFlight = true ∨ l.state = .draining) : KeepsFlight l l' where
  aloft h k := ⟨hf.trans h, hl k, hg, hh⟩
  grounded h := hf.trans h
  draining h k := hf.trans ((hd k).elim id h)

/-- A record without an access in flight becomes another such record. -/
theorem of_landed {l l' : Lease} (h : l.live = true → l.inFlight = false) (h' : Landed l') : KeepsFlight l l' where
  aloft hf hl := by simp [h hl] at hf
  grounded _ := h'.1
  draining _ hd := absurd hd h'.2

theorem landed {l l' : Lease} (k : KeepsFlight l l') (h : Landed l) : Landed l' := by
  have hf := k.grounded h.1
  refine ⟨hf, fun hd => ?_⟩
  rw [k.draining (fun hl => absurd hl h.2) hd] at hf
  cases hf

end KeepsFlight

theorem landed_freeWith (gen : Generation) : Landed (Lease.freeWith gen) := ⟨rfl, nofun⟩

theorem live_false_of_free {l : Lease} (h : l.state = .free) : l.live = false := by simp [Lease.live, h]

theorem live_false_of_revoked {l : Lease} (h : l.state = .revoked) : l.live = false := by simp [Lease.live, h]

/-! ## The whole part -/

/-- Two port access records with the same standing, lease and region. -/
structure SameFlight (a b : AccessRecord) : Prop where
  state : b.state = a.state
  lease : b.lease = a.lease
  region : b.region = a.region

theorem SameFlight.of_eq {a b : AccessRecord} (h : b = a) : SameFlight a b := ⟨h ▸ rfl, h ▸ rfl, h ▸ rfl⟩

theorem SameFlight.trans {a b c : AccessRecord} (h : SameFlight a b) (k : SameFlight b c) : SameFlight a c :=
  ⟨k.state.trans h.state, k.lease.trans h.lease, k.region.trans h.region⟩

/-- The port whose access holds the bus. -/
def State.rider (s : State) : Option PortId := s.bsq.hold.map (·.port)

/-- The accesses, the region counts and the holder of the bus are as they were. -/
structure FlightFrame (s t : State) : Prop where
  access : ∀ p : PortId, SameFlight (s.port p).access (t.port p).access
  count : ∀ r : RegionId, (t.region r).inFlight = (s.region r).inFlight
  rider : t.rider = s.rider

theorem FlightFrame.trans {s t u : State} (h : FlightFrame s t) (k : FlightFrame t u) : FlightFrame s u where
  access p := (h.access p).trans (k.access p)
  count r := (k.count r).trans (h.count r)
  rider := k.rider.trans h.rider

/-- Nothing begins or ends: the frame, and every lease keeps what is in flight under it. -/
structure FlightKept (s t : State) : Prop extends FlightFrame s t where
  lease : ∀ id : LeaseId, KeepsFlight (s.lease id) (t.lease id)

namespace FlightKept

theorem trans {s t u : State} (h : FlightKept s t) (k : FlightKept t u) : FlightKept s u where
  toFlightFrame := h.toFlightFrame.trans k.toFlightFrame
  lease id := (h.lease id).trans (k.lease id)

/-- A change of none of the records that the accesses in flight stand in. -/
theorem aside {s t : State} (hl : t.le.leases = s.le.leases) (hp : t.ptc.ports = s.ptc.ports)
    (hr : t.mu.regions = s.mu.regions) (hb : t.bsq.hold = s.bsq.hold) : FlightKept s t where
  access p := .of_eq (by unfold State.port; rw [hp])
  count r := by unfold State.region; rw [hr]
  rider := by unfold State.rider; rw [hb]
  lease id := by
    have : t.lease id = s.lease id := by unfold State.lease; rw [hl]
    rw [this]
    exact .refl _

theorem refl (s : State) : FlightKept s s := aside rfl rfl rfl rfl

theorem foldl {α : Type} {f : State → α → State} (h : ∀ s a, FlightKept s (f s a)) (l : List α) (s : State) :
    FlightKept s (l.foldl f s) := by
  induction l generalizing s with
  | nil => exact refl s
  | cons a l ih => exact (h s a).trans (ih (f s a))

/-- R41: what neither begins nor ends an access keeps the counts. -/
theorem inFlightAgrees {s t : State} (k : FlightKept s t) (h : InFlightAgrees s) : InFlightAgrees t := by
  obtain ⟨hnamed, hcounted, hdraining, hregion, hbus⟩ := h
  have flying : ∀ p, InFlight t p → InFlight s p := fun p hp => by rwa [InFlight, (k.access p).state] at hp
  refine ⟨fun p hp id g hl => ?_, fun id hf => ?_, fun id hd => ?_, fun r => ?_, fun p => ?_⟩
  · rw [(k.access p).lease] at hl
    obtain ⟨hf, hg, hh⟩ := hnamed p (flying p hp) id g hl
    obtain ⟨hf', _, hg', hh'⟩ := (k.lease id).aloft hf (hcounted id hf).1
    exact ⟨hf', hg'.trans hg, hh'.trans hh⟩
  · have hfs : (s.lease id).inFlight = true := by
      by_contra hn
      rw [(k.lease id).grounded (Bool.eq_false_of_not_eq_true hn)] at hf
      cases hf
    obtain ⟨hl, hp, hn⟩ := hcounted id hfs
    obtain ⟨_, hl', hg, hh⟩ := (k.lease id).aloft hfs hl
    rw [hh, hg]
    refine ⟨hl', ?_, by rw [(k.access _).lease, hn]⟩
    rwa [InFlight, (k.access _).state]
  · exact (k.lease id).draining (hdraining id) hd
  · rw [k.count, hregion]
    exact List.countP_congr fun p _ => by rw [(k.access p).state, (k.access p).region]
  · rw [(k.access p).state]
    change _ ↔ t.rider = _
    rw [k.rider]
    exact hbus p

end FlightKept

theorem LeaseWork.flightFrame {s t : State} (h : LeaseWork s t) : FlightFrame s t where
  access p := .of_eq (h.access p)
  count r := by rw [h.region]
  rider := by unfold State.rider; rw [h.bsq]

/-- An operation of the Lease Engine, by what it does to the slots. -/
theorem LeaseWork.flightKept {s t : State} (h : LeaseWork s t)
    (hl : ∀ id : LeaseId, KeepsFlight (s.lease id) (t.lease id)) : FlightKept s t :=
  ⟨h.flightFrame, hl⟩

theorem updPort_flightKept (p : PortId) (f : Port → Port) (s : State)
    (h : ∀ q : Port, SameFlight q.access (f q).access) : FlightKept s (s.updPort p f) where
  access q := by
    rw [port_updPort]
    split
    · exact h _
    · exact .of_eq rfl
  count _ := rfl
  rider := rfl
  lease _ := .refl _

theorem placeNotice_flightKept (p : PortId) (tag : Tag) (n : ClaimNotice) (s : State) :
    FlightKept s (s.placeNotice p tag n) :=
  updPort_flightKept p _ s fun _ => .of_eq rfl

/-- An event of one requester that leaves the Lease Table as it is. -/
theorem RequesterWork.flightKept {p : PortId} {s t : State} (h : RequesterWork p s t)
    (hl : t.le.leases = s.le.leases) : FlightKept s t where
  access q := by
    by_cases e : q = p
    · exact .of_eq (e ▸ h.access)
    · exact .of_eq (by rw [h.others q e])
  count r := by unfold State.region; rw [h.mu]
  rider := by unfold State.rider; rw [h.bsq]
  lease id := by
    have : t.lease id = s.lease id := by unfold State.lease; rw [hl]
    rw [this]
    exact .refl _

theorem answer_flightKept (p : PortId) (x : Answer) (s : State) : FlightKept s (s.answer p x) :=
  updPort_flightKept p _ s fun _ => .of_eq rfl

theorem updRequester_flightKept (p : PortId) (f : Requester → Requester) (s : State) :
    FlightKept s (s.updRequester p f) :=
  updPort_flightKept p _ s fun _ => .of_eq rfl

theorem updRegion_flightKept (r : RegionId) (f : Region → Region) (s : State)
    (h : ∀ d : Region, (f d).inFlight = d.inFlight) : FlightKept s (s.updRegion r f) where
  access _ := .of_eq rfl
  count k := by
    rw [region_updRegion]
    split
    · exact h _
    · rfl
  rider := rfl
  lease _ := .refl _

theorem raise_flightKept (e : Event) (s : State) : FlightKept s (s.raise e) := .aside rfl rfl rfl rfl

theorem finish_flightKept (code : BitVec 4) (result : HostResult) (s : State) : FlightKept s (s.finish code result) :=
  .aside rfl rfl rfl rfl

theorem setWaiters_flightKept (ws : List Waiter) (s : State) : FlightKept s (s.setWaiters ws) := .aside rfl rfl rfl rfl

theorem updTarget_flightKept (x : TargetId) (f : Target → Target) (s : State) : FlightKept s (s.updTarget x f) :=
  .aside rfl rfl rfl rfl

/-! ## The Lease Engine -/

theorem putLease_flightKept {id : LeaseId} {l : Lease} {s : State} (h : KeepsFlight (s.lease id) l) :
    FlightKept s (s.putLease id l) :=
  (putLease_leaseWork id l s).flightKept fun j => by
    rw [lease_putLease]
    split
    · next e => exact e ▸ h
    · exact .refl _

theorem freeLease_flightKept {id : LeaseId} {s : State}
    (h : (s.lease id).live = true → (s.lease id).inFlight = false) : FlightKept s (s.freeLease id) :=
  putLease_flightKept (.of_landed h (landed_freeWith _))

theorem weighSlotsLow_flightKept (n : Nat) (s : State) : FlightKept s (s.weighSlotsLow n) := by
  unfold State.weighSlotsLow
  split
  · exact raise_flightKept _ s
  · exact .refl s

theorem grantLease_flightKept {id : LeaseId} {s : State} (h : (s.lease id).state = .free) (holder : PortId)
    (region : RegionId) (range : AddrRange) (mode : Mode) (priority : Priority) (requested : Nat) :
    FlightKept s (s.grantLease id holder region range mode priority requested) := by
  have granted : ∀ l : Lease, Landed l → KeepsFlight (s.lease id) l := fun l hl =>
    .of_landed (fun k => by rw [live_false_of_free h] at k; cases k) hl
  exact (putLease_flightKept (granted _ ⟨rfl, LeaseState.noConfusion⟩)).trans (weighSlotsLow_flightKept _ _)

/-- R96: the walk grants only FREE slots. -/
theorem scanWalk_flightKept (ahead ws : List Waiter) (s : State) : FlightKept s (scanWalk ahead ws s) := by
  induction ws generalizing ahead s with
  | nil => exact setWaiters_flightKept ahead s
  | cons w ws ih =>
    unfold scanWalk
    split
    · exact ih _ s
    split
    · exact ih _ s
    split
    · exact setWaiters_flightKept _ s
    · next id hid =>
      have granted : FlightKept s (s.grantWaiter id w) :=
        (grantLease_flightKept (lowestFree_state hid) _ _ _ _ _ _).trans (placeNotice_flightKept _ _ _ _)
      exact granted.trans (ih ahead _)

theorem settle_flightKept (before : State) {s t : State} (h : FlightKept s t) : FlightKept s (before.settle t) := by
  unfold State.settle
  split
  · exact h.trans (scanWalk_flightKept [] _ t)
  · exact h

theorem dropWaiters_flightKept (out : Waiter → Bool) (reason : DropReason) (s : State) :
    FlightKept s (s.dropWaiters out reason) :=
  (dropWaiters_leaseWork out reason s).flightKept fun id => by
    rw [lease_dropWaiters]
    exact .refl _

/-- R73: a revocation lets a lease with an access in flight drain. -/
theorem revoke_flightKept (x : RevokeReason) (id : LeaseId) (s : State) : FlightKept s (s.revoke x id) := by
  unfold State.revoke
  dsimp only
  split
  · exact .refl s
  split
  · next hf => exact putLease_flightKept (.of_same rfl rfl rfl (fun _ => rfl) fun _ => .inl hf)
  next hf =>
  have grounded : (s.lease id).inFlight = false := Bool.eq_false_of_not_eq_true hf
  split
  · exact freeLease_flightKept fun _ => grounded
  · exact putLease_flightKept (.of_landed (fun _ => grounded) ⟨grounded, nofun⟩)

theorem revokeAll_flightKept (x : RevokeReason) (which : Lease → Bool) (s : State) :
    FlightKept s (s.revokeAll x which) := by
  refine FlightKept.foldl (fun s id => ?_) _ s
  split
  · exact revoke_flightKept x id s
  · exact .refl s

theorem freeTombstone_flightKept {id : LeaseId} {s : State} (h : (s.lease id).state = .revoked) :
    FlightKept s (s.freeLease id) :=
  freeLease_flightKept fun k => by
    rw [live_false_of_revoked h] at k
    cases k

theorem clearSlot_flightKept (p : PortId) (id : LeaseId) (s : State) : FlightKept s (s.clearSlot p id) := by
  unfold State.clearSlot
  dsimp only
  split
  · exact .refl s
  split
  · exact .refl s
  · exact revoke_flightKept _ id s
  · next h => exact putLease_flightKept (.of_same rfl rfl rfl (fun k => k) fun _ => .inr h)
  · next h => exact freeTombstone_flightKept h

theorem clearRequest_flightKept (p : PortId) (s : State) : FlightKept s (s.clearRequest p) :=
  settle_flightKept s ((FlightKept.foldl (fun s id => clearSlot_flightKept p id s) _ s).trans (setWaiters_flightKept _ _))

theorem barRequest_flightKept (who : PortId → Bool) (s : State) : FlightKept s (s.barRequest who) :=
  ((revokeAll_flightKept _ _ s).trans (dropWaiters_flightKept _ _ _)).trans (scanWalk_flightKept [] _ _)

theorem enterBarring_flightKept (p : PortId) (s : State) : FlightKept s (s.enterBarring p) :=
  (updRequester_flightKept p _ s).trans (raise_flightKept _ _)

theorem countFault_flightKept (p : PortId) (s : State) : FlightKept s (s.countFault p) := by
  unfold State.countFault
  dsimp only
  split
  · exact (updRequester_flightKept p _ s).trans ((enterBarring_flightKept p _).trans (barRequest_flightKept _ _))
  · exact updRequester_flightKept p _ s

theorem freeTombstones_flightKept (p : PortId) (s : State) : FlightKept s (s.freeTombstones p) := by
  refine FlightKept.foldl (fun s id => ?_) _ s
  split
  · next h => exact freeTombstone_flightKept (by simp [State.tombstoneOf] at h; exact h.1)
  · exact .refl s

/-! ## Lease commands -/

theorem leClaim_flightKept (p : PortId) (w0 w1 w2 : Word) (s : State) : FlightKept s (s.leClaim p w0 w1 w2).1 := by
  have weighed : ∀ w : Waiter, FlightKept s (s.weighClaim w).1 := by
    intro w
    unfold State.weighClaim
    dsimp only
    split
    · next hid => exact grantLease_flightKept (lowestFree_state hid) _ _ _ _ _ _
    split
    · exact .refl s
    · exact settle_flightKept s (.aside rfl rfl rfl rfl)
  unfold State.leClaim
  split
  · split
    · exact .refl s
    · exact weighed _
  · exact .refl s

theorem leRenew_flightKept (p : PortId) (w0 : Word) (s : State) : FlightKept s (s.leRenew p w0).1 := by
  have early : FlightKept s (s.putLease (reqLease w0)
      { s.lease (reqLease w0) with faults := (s.lease (reqLease w0)).faults + 1 }) :=
    putLease_flightKept (.of_same rfl rfl rfl id .inr)
  have renewed : FlightKept s (s.putLease (reqLease w0)
      { s.lease (reqLease w0) with remaining := (s.lease (reqLease w0)).term }) :=
    putLease_flightKept (.of_same rfl rfl rfl id .inr)
  unfold State.leRenew
  dsimp only
  split
  · exact .refl s
  split
  · split
    · exact settle_flightKept s (early.trans (revoke_flightKept _ _ _))
    · exact early
  split
  · exact .refl s
  · dsimp only
    exact renewed.trans (updRequester_flightKept p _ _)

/-- R67: a lease is released by its holder alone, whose port is not in an access of its own then. -/
theorem leRelease_flightKept {p : PortId} (w0 : Word) {s : State}
    (h : ∀ id : LeaseId, (s.lease id).holder = p → (s.lease id).inFlight = false) :
    FlightKept s (s.leRelease p w0).1 := by
  unfold State.leRelease
  dsimp only
  split
  · exact .refl s
  split
  · exact .refl s
  next hp =>
  have free : FlightKept s (s.settle (s.freeLease (reqLease w0))) :=
    settle_flightKept s (freeLease_flightKept fun _ => h _ (not_not.mp hp))
  split
  · exact free
  · exact free
  · exact .refl s
  · exact .refl s

theorem leUpgrade_flightKept (p : PortId) (w0 : Word) (s : State) : FlightKept s (s.leUpgrade p w0).1 := by
  unfold State.leUpgrade
  dsimp only
  split
  · exact .refl s
  split
  · exact .refl s
  split
  · exact .refl s
  split
  · exact .refl s
  split
  · exact .refl s
  split
  · exact .refl s
  · exact putLease_flightKept (.of_same rfl rfl rfl id .inr)

theorem leDowngrade_flightKept (p : PortId) (w0 : Word) (s : State) : FlightKept s (s.leDowngrade p w0).1 := by
  unfold State.leDowngrade
  dsimp only
  split
  · exact .refl s
  split
  · exact settle_flightKept s (putLease_flightKept (.of_same rfl rfl rfl id .inr))
  · exact .refl s

theorem leWithdraw_flightKept (p : PortId) (w0 : Word) (s : State) : FlightKept s (s.leWithdraw p w0).1 := by
  unfold State.leWithdraw
  dsimp only
  split
  · exact settle_flightKept s (setWaiters_flightKept _ s)
  · exact .refl s

theorem windowRead_flightKept (p : PortId) (w : WindowSlot) (s : State) : FlightKept s (s.windowRead p w) := by
  refine (windowRead_requesterWork p w s).flightKept ?_
  unfold State.windowRead
  split <;> rfl

section Requester

variable {p : PortId} {s : State} (h : ∀ id : LeaseId, (s.lease id).holder = p → (s.lease id).inFlight = false)
include h

theorem leCommand_flightKept : FlightKept s (s.leCommand p).1 := by
  unfold State.leCommand
  dsimp only
  split
  · exact .refl s
  split
  · exact leClaim_flightKept p _ _ _ s
  · exact leRenew_flightKept p _ s
  · exact leRelease_flightKept _ h
  · exact leUpgrade_flightKept p _ s
  · exact leDowngrade_flightKept p _ s
  · exact leWithdraw_flightKept p _ s
  · exact .refl s
  · exact .refl s
  · exact .refl s

theorem submit_flightKept : FlightKept s (s.submit p) := by
  have answered : FlightKept s (((s.leCommand p).1.placeReply p (s.leCommand p).2).answer p .writeDone) :=
    ((leCommand_flightKept h).trans ((placeReply_requesterWork p _ _).flightKept rfl)).trans (answer_flightKept p _ _)
  unfold State.submit
  dsimp only
  split
  · exact answered.trans (countFault_flightKept p _)
  · exact answered

theorem windowAccess_flightKept (a : Presentation) : FlightKept s (s.windowAccess p a) := by
  unfold State.windowAccess
  dsimp only
  split
  · exact (windowRead_flightKept p _ s).trans (answer_flightKept p _ _)
  split
  · exact ((writeRequest_requesterWork p _ _ _ s).flightKept rfl).trans (answer_flightKept p _ _)
  · exact submit_flightKept h
  all_goals exact answer_flightKept p _ s

end Requester

theorem refuse_flightKept (p : PortId) (a : Presentation) (f : FaultReason) (s : State) :
    FlightKept s (s.refuse p a f) := by
  have recorded : FlightKept s (s.updPort p fun q =>
      { q with answer := some .busError
               lastFault := { reason := some f, addr := a.addr, dir := a.dir, width := enabledCount a.be } }) :=
    updPort_flightKept p _ s fun _ => .of_eq rfl
  unfold State.refuse
  dsimp only
  split
  · exact recorded.trans (countFault_flightKept p _)
  · exact recorded

end Sys2Proof.Machine
end

section
/-! Accesses in flight (R25, R41, R76, R118, R135): the beginning and the end of an access, its way onto the bus, the resets,
and that every step keeps the counts equal to the accepted accesses. -/

namespace Sys2Proof.Machine

open Sys2Proof.Safety Sys2Proof.Claims

/-! ## Counting ports -/

theorem allPorts_nodup : allPorts.Nodup := by decide

/-- Two counts of the ports that differ at one port. -/
theorem countP_allPorts {f g : PortId → Bool} (p : PortId) (h : ∀ q : PortId, q ≠ p → f q = g q) :
    allPorts.countP f + (g p).toNat = allPorts.countP g + (f p).toNat := by
  have split : ∀ k : PortId → Bool, allPorts.countP k = (allPorts.erase p).countP k + (k p).toNat := fun k => by
    rw [(List.perm_cons_erase (mem_allPorts p)).countP_eq, List.countP_cons]
    cases k p <;> rfl
  have rest : (allPorts.erase p).countP f = (allPorts.erase p).countP g :=
    List.countP_congr fun q hq => by rw [h q ((allPorts_nodup.mem_erase_iff.mp hq).1)]
  rw [split f, split g, rest]
  omega

/-- R25: port `p` has an accepted, unended access in region `r`. -/
abbrev FlightIn (s : State) (r : RegionId) (p : PortId) : Bool :=
  (s.port p).access.state != .idle && (s.port p).access.region == some r

/-- The records of a part without an accepted access. -/
theorem inFlightAgrees_of_idle {s : State} (hp : ∀ p : PortId, (s.port p).access.state = .idle)
    (hl : ∀ id : LeaseId, Landed (s.lease id)) (hr : ∀ r : RegionId, (s.region r).inFlight = 0)
    (hb : s.bsq.hold = none) : InFlightAgrees s := by
  refine ⟨fun p h => absurd (hp p) h, fun id h => ?_, fun id h => absurd h (hl id).2, fun r => ?_, fun p => ?_⟩
  · rw [(hl id).1] at h
    cases h
  · rw [hr, eq_comm, List.countP_eq_zero]
    intro p _
    rw [hp]
    exact Bool.false_ne_true
  · rw [hp, hb]
    exact ⟨nofun, nofun⟩

section Agrees

variable {s : State} (h : InFlightAgrees s)
include h

theorem named_of_inFlight {p : PortId} (hp : InFlight s p) {id : LeaseId} {g : Generation}
    (hl : (s.port p).access.lease = some (id, g)) :
    (s.lease id).inFlight = true ∧ (s.lease id).generation = g ∧ (s.lease id).holder = p := by
  obtain ⟨named, _⟩ := h
  exact named p hp id g hl

theorem counted_of_inFlight {id : LeaseId} (hf : (s.lease id).inFlight = true) :
    (s.lease id).live = true ∧ InFlight s (s.lease id).holder ∧
    (s.port (s.lease id).holder).access.lease = some (id, (s.lease id).generation) := by
  obtain ⟨_, counted, _⟩ := h
  exact counted id hf

theorem inFlight_of_draining {id : LeaseId} (hd : (s.lease id).state = .draining) : (s.lease id).inFlight = true := by
  obtain ⟨_, _, draining, _⟩ := h
  exact draining id hd

theorem onBus_iff (p : PortId) : (s.port p).access.state = .onBus ↔ s.rider = some p := by
  obtain ⟨_, _, _, _, bus⟩ := h
  exact bus p

end Agrees

/-- R41: an IDLE port's requester holds no lease with an access in flight. -/
theorem grounded_of_idle {s : State} {p : PortId} (h : InFlightAgrees s) (hp : (s.port p).access.state = .idle)
    (id : LeaseId) (hh : (s.lease id).holder = p) : (s.lease id).inFlight = false := by
  refine Bool.eq_false_of_not_eq_true fun hf => ?_
  obtain ⟨_, hn, _⟩ := counted_of_inFlight h hf
  exact hn (hh ▸ hp)

/-! ## An access begins (R40) -/

/-- R40: port `p`, IDLE before, has an access accepted in a region and under a lease. -/
structure FlightBegun (p : PortId) (region : Option RegionId) (lease : Option (LeaseId × Generation)) (s t : State) :
    Prop where
  own : (t.port p).access.state = .waitingBus ∧ (t.port p).access.lease = lease ∧ (t.port p).access.region = region
  other : ∀ q : PortId, q ≠ p → (t.port q).access = (s.port q).access
  count : ∀ r : RegionId, (t.region r).inFlight = (s.region r).inFlight + (region == some r).toNat
  rider : t.rider = s.rider
  lease : ∀ id : LeaseId,
    t.lease id = if lease.map (·.1) = some id then { s.lease id with inFlight := true } else s.lease id

theorem FlightBegun.inFlightAgrees {p : PortId} {region : Option RegionId} {lease : Option (LeaseId × Generation)}
    {s t : State} (b : FlightBegun p region lease s t) (h : InFlightAgrees s) (hp : (s.port p).access.state = .idle)
    (hl : ∀ id gen, lease = some (id, gen) →
      (s.lease id).state = .held ∧ (s.lease id).holder = p ∧ (s.lease id).generation = gen) : InFlightAgrees t := by
  obtain ⟨hnamed, hcounted, hdraining, hregion, hbus⟩ := h
  obtain ⟨hwaits, hlease, hin⟩ := b.own
  have same : ∀ id, (t.lease id).state = (s.lease id).state ∧ (t.lease id).holder = (s.lease id).holder ∧
      (t.lease id).generation = (s.lease id).generation ∧ ((s.lease id).inFlight = true → (t.lease id).inFlight = true) := by
    intro id
    rw [b.lease]
    split
    · exact ⟨rfl, rfl, rfl, fun _ => rfl⟩
    · exact ⟨rfl, rfl, rfl, fun k => k⟩
  refine ⟨fun q hq id g hn => ?_, fun id hf => ?_, fun id hd => ?_, fun r => ?_, fun q => ?_⟩
  · obtain ⟨_, hh, hg, hfl⟩ := same id
    by_cases e : q = p
    · subst e
      rw [hlease] at hn
      obtain ⟨_, hho, hge⟩ := hl id g hn
      refine ⟨?_, hg.trans hge, hh.trans hho⟩
      rw [b.lease, hn]
      simp
    · rw [InFlight, b.other q e] at hq
      rw [b.other q e] at hn
      obtain ⟨hfs, hgs, hhs⟩ := hnamed q hq id g hn
      exact ⟨hfl hfs, hg.trans hgs, hh.trans hhs⟩
  · obtain ⟨hs, hh, hg, _⟩ := same id
    have live : (t.lease id).live = (s.lease id).live := by unfold Lease.live; rw [hs]
    rw [live, hh, hg]
    by_cases e : lease.map (·.1) = some id
    · obtain ⟨⟨id', gen⟩, hle, rfl⟩ := Option.map_eq_some_iff.mp e
      obtain ⟨hheld, rfl, rfl⟩ := hl id' gen hle
      exact ⟨live_of_held hheld, by rw [InFlight, hwaits]; decide, hlease.trans hle⟩
    · rw [b.lease, if_neg e] at hf
      obtain ⟨hlive, hfly, hn⟩ := hcounted id hf
      have hne : (s.lease id).holder ≠ p := fun k => hfly (k ▸ hp)
      rw [InFlight, b.other _ hne]
      exact ⟨hlive, hfly, hn⟩
  · obtain ⟨hs, _, _, hfl⟩ := same id
    exact hfl (hdraining id (hs ▸ hd))
  · have differ := countP_allPorts (f := FlightIn t r) (g := FlightIn s r) p fun q hq => by
      rw [FlightIn, b.other q hq]
    have before : FlightIn s r p = false := by simp [FlightIn, hp]
    have after : FlightIn t r p = (region == some r) := by simp [FlightIn, hwaits, hin]
    rw [before, after] at differ
    rw [b.count, hregion]
    exact differ.symm
  · change _ ↔ t.rider = some q
    rw [b.rider]
    by_cases e : q = p
    · subst e
      rw [hwaits]
      refine ⟨nofun, fun k => ?_⟩
      rw [(hbus q).mpr k] at hp
      cases hp
    · rw [b.other q e]
      exact hbus q

theorem accept_flightBegun (p : PortId) (a : Presentation) (region : Option RegionId)
    (lease : Option (LeaseId × Generation)) (cycle : CycleFields) (s : State) :
    FlightBegun p region lease s (s.accept p a region lease cycle) := by
  unfold State.accept
  dsimp only
  refine ⟨?own, fun q hq => ?other, fun r => ?count, ?rider, fun id => ?lease⟩
  case own =>
    rw [port_updPort_self]
    exact ⟨rfl, rfl, rfl⟩
  case other =>
    rw [port_updPort_ne _ _ hq.symm]
    cases lease with
    | none => cases region <;> rfl
    | some l =>
      rw [(putLease_leaseWork l.1 _ _).access]
      cases region <;> rfl
  case count =>
    rw [updPort_region]
    have counted : ∀ u : State, u = (match region with
        | none => s
        | some r => s.updRegion r fun d => { d with inFlight := d.inFlight + 1 }) →
        (u.region r).inFlight = (s.region r).inFlight + (region == some r).toNat := by
      rintro u rfl
      cases region with
      | none => rfl
      | some k =>
        dsimp only
        rw [region_updRegion]
        by_cases e : k = r <;> simp [e]
    cases lease with
    | none => exact counted _ rfl
    | some l =>
      dsimp only
      rw [(putLease_leaseWork l.1 _ _).region]
      exact counted _ rfl
  case rider =>
    unfold State.rider
    rw [updPort_bsq]
    cases lease with
    | none => cases region <;> rfl
    | some l =>
      dsimp only
      rw [(putLease_leaseWork l.1 _ _).bsq]
      cases region <;> rfl
  case lease =>
    rw [updPort_lease]
    cases lease with
    | none => cases region <;> rfl
    | some l =>
      dsimp only
      rw [lease_putLease, Option.map_some]
      simp only [Option.some.injEq]
      split
      · next e =>
        subst e
        cases region <;> rfl
      · cases region <;> rfl

/-- R26 to R44: a port that can take an access judges it, and the counts agree after it as before. -/
theorem carryOut_inFlightAgrees {p : PortId} (a : Presentation) {s : State} (h : InFlightAgrees s)
    (hc : s.canTake p = true) : InFlightAgrees (s.carryOut p a) := by
  have hp := (canTake_iff.mp hc).1
  unfold State.carryOut
  split
  · exact (refuse_flightKept p a _ s).inFlightAgrees h
  · exact (windowAccess_flightKept (grounded_of_idle h hp) a).inFlightAgrees h
  · next hj => exact (accept_flightBegun p a _ _ _ s).inFlightAgrees h hp (judge_accept hj).2

theorem standing_flightKept (p : PortId) (x : Port → Option Presentation) (s : State) :
    FlightKept s (s.updPort p fun q => { q with standing := x q }) :=
  updPort_flightKept p _ s fun _ => .of_eq rfl

theorem takeStanding_inFlightAgrees (p : PortId) {s : State} (h : InFlightAgrees s) :
    InFlightAgrees (s.takeStanding p) := by
  unfold State.takeStanding
  split
  · next a _ hc =>
    refine carryOut_inFlightAgrees a ((standing_flightKept p _ s).inFlightAgrees h) ?_
    rw [canTake_iff] at hc ⊢
    rw [port_updPort_self]
    exact hc
  · exact h

theorem present_inFlightAgrees (p : PortId) (a : Presentation) {s : State} (h : InFlightAgrees s) :
    InFlightAgrees (s.present p a) := by
  have taken := takeStanding_inFlightAgrees p h
  unfold State.present
  dsimp only
  split
  · next hc => exact carryOut_inFlightAgrees a taken hc
  · exact (standing_flightKept p _ _).inFlightAgrees taken

theorem submitRow_inFlightAgrees (code : Nat) (p : PortId) (be : BitVec 4) (data : Word) {s : State}
    (h : InFlightAgrees s) : InFlightAgrees (s.submitRow code p be data) := by
  unfold State.submitRow
  split
  · exact present_inFlightAgrees p _ h
  · exact h

/-! ## The resets -/

theorem hardwareReset_inFlightAgrees (s : State) : InFlightAgrees s.hardwareReset := by
  refine inFlightAgrees_of_idle (fun p => ?_) (fun id => ?_) (fun r => ?_) rfl
  · have : s.hardwareReset.port p = Port.reset p (s.port p).requester.inReset (s.port p).standing := mapTable_get _ _ p
    rw [this]
    rfl
  · rw [lease_hardwareReset]
    exact landed_freeWith _
  · rw [region_hardwareReset]
    rfl

theorem softResetReport_inFlightAgrees {s : State} (h : InFlightAgrees s) : InFlightAgrees s.softResetReport := by
  unfold State.softResetReport
  split
  · next hr =>
    refine inFlightAgrees_of_idle (fun p => ?_) (fun id => ?_) (fun r => ?_) hr.2.1
    · have : s.completeSoftReset.port p = softResetPort p (s.port p) := mapTable_get _ _ p
      rw [this]
      rfl
    · rw [lease_completeSoftReset]
      exact landed_freeWith _
    · rw [region_completeSoftReset]
  · exact h

/-! ## An access ends (R135) -/

theorem retireTest_flightKept (r : RegionId) (s : State) : FlightKept s (s.retireTest r) := by
  unfold State.retireTest
  split
  · exact (updRegion_flightKept r (fun d => { d with state := .invalid }) s fun _ => rfl).trans (finish_flightKept _ _ _)
  · exact .refl s

/-- R76: the access under lease `id` has ended, and nothing else began or ended. -/
structure LeaseEnded (id : LeaseId) (s t : State) : Prop extends FlightFrame s t where
  landed : Landed (t.lease id)
  others : ∀ j : LeaseId, j ≠ id → KeepsFlight (s.lease j) (t.lease j)

theorem LeaseEnded.kept {id : LeaseId} {s t u : State} (h : LeaseEnded id s t) (k : FlightKept t u) : LeaseEnded id s u where
  toFlightFrame := h.toFlightFrame.trans k.toFlightFrame
  landed := (k.lease id).landed h.landed
  others j hj := (h.others j hj).trans (k.lease j)

theorem putLease_leaseEnded {id : LeaseId} {l : Lease} (h : Landed l) (s : State) : LeaseEnded id s (s.putLease id l) where
  toFlightFrame := (putLease_leaseWork id l s).flightFrame
  landed := by
    rw [lease_putLease, if_pos rfl]
    exact h
  others j hj := by
    rw [lease_putLease, if_neg hj.symm]
    exact .refl _

theorem LeaseEnded.settle {id : LeaseId} (before : State) {s t : State} (h : LeaseEnded id s t) :
    LeaseEnded id s (before.settle t) :=
  h.kept (settle_flightKept before (.refl t))

theorem drainLease_leaseEnded (id : LeaseId) (s : State) : LeaseEnded id s (s.drainLease id) := by
  unfold State.drainLease
  refine .settle s (.kept ?_ (retireTest_flightKept _ _))
  split
  · exact putLease_leaseEnded (landed_freeWith _) s
  · exact putLease_leaseEnded ⟨rfl, LeaseState.noConfusion⟩ s

theorem endUnder_leaseEnded {id : LeaseId} {s : State} (hl : (s.lease id).live = true) :
    LeaseEnded id s (s.endUnder id (s.lease id).generation) := by
  unfold State.endUnder
  dsimp only
  rw [if_neg (by simp)]
  split
  · next hs => exact putLease_leaseEnded ⟨rfl, by rw [hs]; exact LeaseState.noConfusion⟩ s
  · exact drainLease_leaseEnded id s
  · next hs =>
    rw [live_false_of_free hs] at hl
    cases hl
  · next hs =>
    rw [live_false_of_revoked hs] at hl
    cases hl

/-- R135, steps 1 to 3: the answer and the record, the region's count, the lease. -/
def State.endRecords (p : PortId) (e : AccessEnd) (s : State) : State :=
  ((s.endAnswer p e).endRegion (s.port p).access.region).endLease (s.port p).access.lease

theorem endAccess_eq (p : PortId) (e : AccessEnd) (s : State) : s.endAccess p e = (s.endRecords p e).endBus p := rfl

/-- R135: port `p`'s access has ended in the records, the bus aside. -/
structure RecordsEnded (p : PortId) (s t : State) : Prop where
  idle : (t.port p).access.state = .idle
  other : ∀ q : PortId, q ≠ p → SameFlight (s.port q).access (t.port q).access
  count : ∀ r : RegionId, (t.region r).inFlight = CountAfter s p r
  landed : ∀ id : LeaseId, (s.port p).access.lease = some (id, (s.lease id).generation) → Landed (t.lease id)
  lease : ∀ id : LeaseId, (s.port p).access.lease ≠ some (id, (s.lease id).generation) →
    KeepsFlight (s.lease id) (t.lease id)

theorem RecordsEnded.inFlightAgrees {p : PortId} {s t : State} (d : RecordsEnded p s t) (h : InFlightAgrees s)
    (hp : InFlight s p) (hb : t.rider = if s.rider = some p then none else s.rider) : InFlightAgrees t := by
  obtain ⟨hnamed, hcounted, hdraining, hregion, hbus⟩ := h
  have flying : ∀ q, InFlight t q → q ≠ p ∧ InFlight s q := fun q hq => by
    have hne : q ≠ p := fun e => hq (e ▸ d.idle)
    exact ⟨hne, by rwa [InFlight, (d.other q hne).state] at hq⟩
  refine ⟨fun q hq id g hn => ?_, fun id hf => ?_, fun id hd => ?_, fun r => ?_, fun q => ?_⟩
  · obtain ⟨hne, hqs⟩ := flying q hq
    rw [(d.other q hne).lease] at hn
    obtain ⟨hf, hg, hh⟩ := hnamed q hqs id g hn
    have apart : (s.port p).access.lease ≠ some (id, (s.lease id).generation) := fun k =>
      hne (hh.symm.trans (hnamed p hp _ _ k).2.2)
    obtain ⟨hf', _, hg', hh'⟩ := (d.lease id apart).aloft hf (hcounted id hf).1
    exact ⟨hf', hg'.trans hg, hh'.trans hh⟩
  · have apart : (s.port p).access.lease ≠ some (id, (s.lease id).generation) := fun k => by
      rw [(d.landed id k).1] at hf
      cases hf
    have hfs : (s.lease id).inFlight = true := by
      by_contra hn
      rw [(d.lease id apart).grounded (Bool.eq_false_of_not_eq_true hn)] at hf
      cases hf
    obtain ⟨hl, hfly, hn⟩ := hcounted id hfs
    obtain ⟨_, hl', hg, hh⟩ := (d.lease id apart).aloft hfs hl
    have hne : (s.lease id).holder ≠ p := fun k => apart (k ▸ hn)
    rw [hh, hg, InFlight, (d.other _ hne).state, (d.other _ hne).lease]
    exact ⟨hl', hfly, hn⟩
  · by_cases apart : (s.port p).access.lease = some (id, (s.lease id).generation)
    · exact absurd hd (d.landed id apart).2
    · exact (d.lease id apart).draining (hdraining id) hd
  · have differ := countP_allPorts (f := FlightIn t r) (g := FlightIn s r) p fun q hq => by
      rw [FlightIn, (d.other q hq).state, (d.other q hq).region]
    have before : FlightIn s r p = ((s.port p).access.region == some r) := by
      have : ((s.port p).access.state != .idle) = true := bne_iff_ne.mpr hp
      rw [FlightIn, this, Bool.true_and]
    have after : FlightIn t r p = false := by simp [FlightIn, d.idle]
    rw [before, after] at differ
    rw [d.count, CountAfter, hregion]
    split
    · next e =>
      rw [e, beq_self_eq_true] at differ
      exact (Nat.eq_sub_of_add_eq differ).symm
    · next e =>
      rw [beq_eq_false_iff_ne.mpr e] at differ
      exact differ.symm
  · change _ ↔ t.rider = some q
    rw [hb]
    by_cases e : q = p
    · subst e
      rw [d.idle]
      refine ⟨nofun, fun k => ?_⟩
      split at k
      · cases k
      · contradiction
    · rw [(d.other q e).state, hbus q]
      change s.rider = some q ↔ _
      split
      · next k =>
        rw [k]
        exact ⟨fun hqp => absurd (Option.some.inj hqp).symm e, nofun⟩
      · exact Iff.rfl

theorem access_endAnswer (p : PortId) (e : AccessEnd) (s : State) (q : PortId) :
    ((s.endAnswer p e).port q).access =
      if p = q then { (s.port q).access with state := .idle } else (s.port q).access := by
  unfold State.endAnswer
  rw [port_updPort]
  split
  · dsimp only
    split
    · rfl
    · cases e <;> rfl
  · rfl

/-- R23, R25: the end of an access at its region changes nothing but the map's counts and states and the unit. -/
theorem endRegion_frame (region : Option RegionId) (s : State) :
    (s.endRegion region).le = s.le ∧ (s.endRegion region).ptc = s.ptc ∧ (s.endRegion region).bsq = s.bsq ∧
    ∀ r : RegionId, ((s.endRegion region).region r).inFlight =
      if region = some r then (s.region r).inFlight - 1 else (s.region r).inFlight := by
  cases region with
  | none => exact ⟨rfl, rfl, rfl, fun _ => rfl⟩
  | some k =>
    have test : ∀ u : State, (u.retireTest k).bsq = u.bsq := fun u => by
      unfold State.retireTest
      split <;> rfl
    obtain ⟨hle, hptc⟩ := retireTest_frame k (s.updRegion k fun d => { d with inFlight := d.inFlight - 1 })
    refine ⟨hle, hptc, test _, fun r => ?_⟩
    unfold State.endRegion
    dsimp only
    rw [(retireTest_flightKept k _).count, region_updRegion]
    simp only [Option.some.injEq]
    split <;> rfl

theorem endRecords_recordsEnded {p : PortId} (e : AccessEnd) {s : State} (h : InFlightAgrees s) (hp : InFlight s p) :
    RecordsEnded p s (s.endRecords p e) ∧ (s.endRecords p e).rider = s.rider := by
  obtain ⟨hle, hptc, hbsq, hcount⟩ := endRegion_frame (s.port p).access.region (s.endAnswer p e)
  unfold State.endRecords
  generalize hu : (s.endAnswer p e).endRegion (s.port p).access.region = u at *
  have lease : ∀ id, u.lease id = s.lease id := fun id => by unfold State.lease; rw [hle]; rfl
  have access : ∀ q, (u.port q).access = if p = q then { (s.port q).access with state := .idle } else (s.port q).access :=
    fun q => by
      rw [← access_endAnswer p e s q]
      unfold State.port
      rw [hptc]
  have rider : u.rider = s.rider := by unfold State.rider; rw [hbsq]; rfl
  have ended : ∀ t : State, FlightFrame u t →
      (∀ id, (s.port p).access.lease = some (id, (s.lease id).generation) → Landed (t.lease id)) →
      (∀ id, (s.port p).access.lease ≠ some (id, (s.lease id).generation) → KeepsFlight (s.lease id) (t.lease id)) →
      RecordsEnded p s t ∧ t.rider = s.rider := by
    intro t frame landed others
    refine ⟨⟨?_, fun q hq => ?_, fun r => ?_, landed, others⟩, frame.rider.trans rider⟩
    · rw [(frame.access p).state, access, if_pos rfl]
    · have := access q
      rw [if_neg hq.symm] at this
      exact (SameFlight.of_eq this).trans (frame.access q)
    · rw [frame.count, hcount]
      rfl
  cases hl : (s.port p).access.lease with
  | none =>
    refine ended u (FlightKept.refl u).toFlightFrame (fun id k => ?_) (fun id _ => ?_)
    · rw [hl] at k
      cases k
    · rw [lease]
      exact .refl _
  | some x =>
    obtain ⟨hf, hg, _⟩ := named_of_inFlight h hp hl
    obtain ⟨live, _⟩ := counted_of_inFlight h hf
    have d : LeaseEnded x.1 u (u.endLease (some x)) := by
      have := endUnder_leaseEnded (id := x.1) (s := u) (by rw [lease]; exact live)
      rw [lease, hg] at this
      exact this
    refine ended _ d.toFlightFrame (fun id k => ?_) (fun id k => ?_)
    · rw [hl] at k
      cases k
      exact d.landed
    · have hne : id ≠ x.1 := fun e => k (by rw [hl, e, hg])
      rw [← lease]
      exact d.others id hne

/-- R135: the end of an accepted access. -/
theorem endAccess_inFlightAgrees {p : PortId} (e : AccessEnd) {s : State} (h : InFlightAgrees s) (hp : InFlight s p) :
    InFlightAgrees (s.endAccess p e) := by
  obtain ⟨ended, rider⟩ := endRecords_recordsEnded e h hp
  rw [endAccess_eq]
  unfold State.endBus
  change InFlightAgrees (if (s.endRecords p e).rider = some p then _ else _)
  split
  · next hb =>
    have freed : RecordsEnded p s ((s.endRecords p e).setHold none) :=
      ⟨ended.idle, ended.other, ended.count, ended.landed, ended.lease⟩
    exact softResetReport_inFlightAgrees (freed.inFlightAgrees h hp (if_pos (rider ▸ hb)).symm)
  · next hb =>
    rw [rider] at hb
    exact ended.inFlightAgrees h hp (rider.trans (if_neg hb).symm)

/-- R135: the end of a waiting access leaves the bus, and what the other ports are at. -/
theorem endAccess_of_waiting {p : PortId} (e : AccessEnd) {s : State} (h : InFlightAgrees s)
    (hw : (s.port p).access.state = .waitingBus) {q : PortId} (hq : q ≠ p) :
    ((s.endAccess p e).port q).access.state = (s.port q).access.state := by
  obtain ⟨ended, rider⟩ := endRecords_recordsEnded e h (by rw [InFlight, hw]; decide)
  have apart : (s.endRecords p e).rider ≠ some p := fun k => by
    rw [rider] at k
    rw [(onBus_iff h p).mpr k] at hw
    cases hw
  have same : s.endAccess p e = s.endRecords p e := if_neg apart
  rw [same]
  exact (ended.other q hq).state

/-! ## The start of a soft reset (R138, R180) -/

theorem pullOut_perm {α : Type} (n : Nat) (xs : List α) : (pullOut n xs).Perm xs := by
  induction xs generalizing n with
  | nil => cases n <;> exact .refl _
  | cons x xs ih =>
    cases n with
    | zero => exact .refl _
    | succ n =>
      have rest := ih n
      unfold pullOut
      split
      · next hn =>
        rw [hn] at rest
        rw [rest.nil_eq]
      · next y ys hn =>
        rw [hn] at rest
        exact (List.Perm.swap x y ys).trans (rest.cons x)

/-- The order of a free value is an order of the same elements. -/
theorem orderBy_perm {α : Type} (fuel k : Nat) (xs : List α) : (orderBy fuel k xs).Perm xs := by
  induction fuel generalizing k xs with
  | zero => exact .refl _
  | succ fuel ih =>
    rcases xs with _ | ⟨x, _ | ⟨y, xs⟩⟩
    · exact .refl _
    · exact .refl _
    · have pulled := pullOut_perm (k % (x :: y :: xs).length) (x :: y :: xs)
      unfold orderBy
      split
      · next hn =>
        rw [hn] at pulled
        rw [pulled.nil_eq]
      · next hn =>
        rw [hn] at pulled
        exact ((ih _ _).cons _).trans pulled

theorem foldl_endAccess_inFlightAgrees (e : AccessEnd) {l : List PortId} (hn : l.Nodup) {s : State} (h : InFlightAgrees s)
    (hw : ∀ p ∈ l, (s.port p).access.state = .waitingBus) :
    InFlightAgrees (l.foldl (fun s p => s.endAccess p e) s) := by
  induction l generalizing s with
  | nil => exact h
  | cons p l ih =>
    obtain ⟨hp, hn⟩ := List.nodup_cons.mp hn
    have waits := hw p List.mem_cons_self
    refine ih hn (endAccess_inFlightAgrees e h (by rw [InFlight, waits]; decide)) fun q hq => ?_
    rw [endAccess_of_waiting e h waits fun k => hp (k ▸ hq)]
    exact hw q (List.mem_cons_of_mem p hq)

theorem startSoftReset_inFlightAgrees {s : State} (h : InFlightAgrees s) : InFlightAgrees s.startSoftReset := by
  have order : s.resetOrder.Perm (allPorts.filter fun p => s.waits p) := orderBy_perm _ _ _
  refine softResetReport_inFlightAgrees (foldl_endAccess_inFlightAgrees _ ?_ ?_ fun p hp => ?_)
  · exact order.nodup_iff.mpr (allPorts_nodup.filter _)
  · exact (FlightKept.aside rfl rfl rfl rfl).inFlightAgrees h
  · change (s.port p).access.state = .waitingBus
    simpa [State.waits] using order.mem_iff.mp hp

/-! ## The bus -/

/-- R120: the port the arbiter picks waits. -/
theorem waiting_of_pick {s : State} {l : Priority} {p : PortId} (h : s.pick = some (l, p)) :
    (s.port p).access.state = .waitingBus := by
  unfold State.pick at h
  split at h
  · cases h
  split at h
  · cases h
  next hf =>
  cases h
  have := List.find?_some hf
  simp only [State.waits, Bool.and_eq_true, beq_iff_eq] at this
  exact this.1

theorem setHold_flightKept {s : State} {h : Option BusHold} (hr : h.map (·.port) = s.rider) :
    FlightKept s (s.setHold h) where
  access _ := .of_eq rfl
  count _ := rfl
  rider := hr
  lease _ := .refl _

/-- R122: a waiting access goes onto the FREE bus. -/
theorem mount_inFlightAgrees {s : State} {p : PortId} (h : InFlightAgrees s) (hb : s.rider = none)
    (hw : (s.port p).access.state = .waitingBus) (x : Word) :
    InFlightAgrees ((s.updAccess p fun a => { a with state := .onBus }).startCycle p x) := by
  obtain ⟨hnamed, hcounted, hdraining, hregion, hbus⟩ := h
  generalize ht : (s.updAccess p fun a => { a with state := .onBus }).startCycle p x = t
  have access : ∀ q, (t.port q).access = if p = q then { (s.port q).access with state := .onBus } else (s.port q).access :=
    fun q => by
      rw [← ht]
      change ((s.updAccess p fun a => { a with state := .onBus }).port q).access = _
      rw [port_updAccess]
      split <;> rfl
  have same : ∀ q, (t.port q).access.lease = (s.port q).access.lease ∧
      (t.port q).access.region = (s.port q).access.region ∧ (InFlight t q ↔ InFlight s q) := fun q => by
    rw [InFlight, access]
    split
    · next e =>
      subst e
      exact ⟨rfl, rfl, by simp [InFlight, hw]⟩
    · exact ⟨rfl, rfl, Iff.rfl⟩
  have lease : ∀ id, t.lease id = s.lease id := fun id => by rw [← ht]; rfl
  have region : ∀ r, t.region r = s.region r := fun r => by rw [← ht]; rfl
  have rider : t.rider = some p := by rw [← ht]; rfl
  refine ⟨fun q hq id g hl => ?_, fun id hf => ?_, fun id hd => ?_, fun r => ?_, fun q => ?_⟩
  · obtain ⟨hsame, _, hfly⟩ := same q
    rw [lease]
    exact hnamed q (hfly.mp hq) id g (hsame ▸ hl)
  · rw [lease] at hf ⊢
    obtain ⟨hsame, _, hfly⟩ := same (s.lease id).holder
    rw [hfly, hsame]
    exact hcounted id hf
  · rw [lease] at hd ⊢
    exact hdraining id hd
  · rw [region, hregion]
    refine List.countP_congr fun q _ => ?_
    obtain ⟨_, hsame, hfly⟩ := same q
    rw [hsame, Bool.and_eq_true, Bool.and_eq_true, bne_iff_ne, bne_iff_ne]
    exact and_congr_left fun _ => hfly.symm
  · change _ ↔ t.rider = some q
    rw [rider, access]
    split
    · next e => exact ⟨fun _ => congrArg some e, fun _ => rfl⟩
    · next e =>
      have off : (s.port q).access.state ≠ .onBus := fun k => by
        have := (hbus q).mp k
        change s.rider = some q at this
        rw [hb] at this
        cases this
      exact ⟨fun k => absurd k off, fun k => absurd (Option.some.inj k) e⟩

theorem grantDecision_inFlightAgrees {s : State} (h : InFlightAgrees s) : InFlightAgrees s.grantDecision := by
  unfold State.grantDecision
  split
  · exact h
  next hb =>
  have free : s.rider = none := by
    unfold State.rider
    rw [Option.isSome_iff_ne_none, not_not] at hb
    rw [hb]
    rfl
  split
  · exact h
  next l p hpick =>
  have waits := waiting_of_pick hpick
  have pointed : InFlightAgrees { s with bsq := { s.bsq with pointers := s.bsq.pointers.set l p } } :=
    (FlightKept.aside rfl rfl rfl rfl).inFlightAgrees h
  dsimp only
  split
  · exact endAccess_inFlightAgrees _ pointed fun k => nomatch waits.symm.trans k
  · exact mount_inFlightAgrees pointed free waits _

/-- R118: the port that holds the bus has an accepted access. -/
theorem inFlight_of_hold {s : State} (h : InFlightAgrees s) {b : BusHold} (hb : s.bsq.hold = some b) : InFlight s b.port := by
  have onBus : (s.port b.port).access.state = .onBus := (onBus_iff h b.port).mpr (by rw [State.rider, hb]; rfl)
  rw [InFlight, onBus]
  decide

theorem FlightKept.inFlight {s t : State} (k : FlightKept s t) {p : PortId} (h : InFlight s p) : InFlight t p := by
  rwa [InFlight, (k.access p).state]

theorem cycleComplete_inFlightAgrees (data : Word) {s : State} (h : InFlightAgrees s) :
    InFlightAgrees (s.cycleComplete data) := by
  unfold State.cycleComplete
  split
  · exact h
  next b hb =>
  have done : ∀ (x : TargetId) (f : Target → Target), FlightKept s
      ((s.updTarget x f).updAccess b.port fun a => { a with cyclesDone := a.cyclesDone + 1 }) := fun x f =>
    (updTarget_flightKept x f s).trans (updPort_flightKept _ _ _ fun _ => ⟨rfl, rfl, rfl⟩)
  have onBus := inFlight_of_hold h hb
  dsimp only
  split
  · exact endAccess_inFlightAgrees _ ((done _ _).inFlightAgrees h) ((done _ _).inFlight onBus)
  split
  · exact endAccess_inFlightAgrees _ ((done _ _).inFlightAgrees h) ((done _ _).inFlight onBus)
  · refine ((done _ _).trans (setHold_flightKept ?_)).inFlightAgrees h
    rw [(done _ _).rider, State.rider, hb]
    rfl

theorem countTimeout_flightKept (x : TargetId) (a : Word) (s : State) : FlightKept s (s.countTimeout x a) := by
  unfold State.countTimeout
  dsimp only
  split
  · exact .aside rfl rfl rfl rfl
  · exact .aside rfl rfl rfl rfl

theorem cycleTimeout_inFlightAgrees {s : State} (h : InFlightAgrees s) : InFlightAgrees s.cycleTimeout := by
  unfold State.cycleTimeout
  split
  · exact h
  next b hb =>
  dsimp only
  split
  · exact h
  · have counted := countTimeout_flightKept (s.port b.port).access.cycle.target (s.port b.port).access.cycleAddr s
    exact endAccess_inFlightAgrees _ (counted.inFlightAgrees h) (counted.inFlight (inFlight_of_hold h hb))

theorem bclkPeriod_inFlightAgrees (ready : Bool) (data : Word) {s : State} (h : InFlightAgrees s) :
    InFlightAgrees (s.bclkPeriod ready data) := by
  unfold State.bclkPeriod
  split
  · exact h
  next b hb =>
  dsimp only
  split
  · exact cycleComplete_inFlightAgrees data h
  split
  · exact cycleTimeout_inFlightAgrees h
  · refine (setHold_flightKept ?_).inFlightAgrees h
    rw [State.rider, hb]
    rfl

/-! ## Lease time -/

theorem lowerLeases_flightKept (s : State) : FlightKept s s.lowerLeases where
  access _ := .of_eq rfl
  count _ := rfl
  rider := rfl
  lease id := by
    have : s.lowerLeases.lease id = (s.lease id).lowered := mapTable_get _ _ id
    rw [this]
    unfold Lease.lowered
    split
    · next hh => exact .of_same rfl rfl rfl (fun k => k) .inr
    · exact .refl _

theorem expireLeases_flightKept (s : State) : FlightKept s s.expireLeases := by
  unfold State.expireLeases
  split
  · exact (revokeAll_flightKept _ _ s).trans (raise_flightKept _ _)
  · exact .refl s

theorem tick_flightKept (s : State) : FlightKept s s.tick := by
  unfold State.tick
  split
  · exact .refl s
  · refine .trans (t := { s with divider := tickPeriod s.mgp.tickDiv }) (.aside rfl rfl rfl rfl) ?_
    exact settle_flightKept _ ((((lowerLeases_flightKept _).trans (expireLeases_flightKept _)).trans
      (setWaiters_flightKept _ _)).trans (dropWaiters_flightKept _ _ _))

theorem expireOne_flightKept (id : LeaseId) (s : State) : FlightKept s (s.expireOne id) := by
  unfold State.expireOne
  split
  · exact settle_flightKept s ((revoke_flightKept _ id s).trans (raise_flightKept _ _))
  · exact .refl s

/-- R41, R76: while the counts agree, no DRAINING lease is without its access. -/
theorem drainOne_of_inFlightAgrees (id : LeaseId) {s : State} (h : InFlightAgrees s) : s.drainOne id = s := by
  refine if_neg fun ⟨hd, hn⟩ => ?_
  obtain ⟨_, hfly, hl⟩ := counted_of_inFlight h (inFlight_of_draining h hd)
  have := List.all_eq_true.mp hn _ (mem_allPorts (s.lease id).holder)
  simp only [Bool.or_eq_true, beq_iff_eq, bne_iff_ne] at this
  exact this.elim hfly (absurd hl)

theorem refclkPeriod_flightKept (s : State) : FlightKept s s.refclkPeriod := by
  unfold State.refclkPeriod
  split
  · exact .refl s
  split
  · exact tick_flightKept s
  · exact .aside rfl rfl rfl rfl

theorem resumeScan_flightKept (s : State) : FlightKept s s.resumeScan := by
  unfold State.resumeScan
  split
  · exact .refl s
  · refine .trans (t := { s with le := { s.le with resumeScans := s.le.resumeScans - 1 } }) (.aside rfl rfl rfl rfl) ?_
    exact scanWalk_flightKept [] _ _

/-! ## Host commands -/

theorem hostRegionCommit_flightKept (arg : BitVec 12) (s : State) : FlightKept s (s.hostRegionCommit arg) := by
  unfold State.hostRegionCommit
  split
  · exact finish_flightKept _ _ s
  split
  · exact finish_flightKept _ _ s
  · exact (updRegion_flightKept _ (fun old => installed old _) s fun _ => rfl).trans (finish_flightKept _ _ _)

theorem hostGroupSet_flightKept (arg : BitVec 12) (s : State) : FlightKept s (s.hostGroupSet arg) := by
  unfold State.hostGroupSet
  split
  · exact finish_flightKept _ _ s
  dsimp only
  split
  · exact .aside rfl rfl rfl rfl
  · exact finish_flightKept _ _ s

theorem hostRegionSuspend_flightKept (arg : BitVec 12) (s : State) : FlightKept s (s.hostRegionSuspend arg) := by
  unfold State.hostRegionSuspend
  split
  · exact finish_flightKept _ _ s
  split
  · exact (updRegion_flightKept _ (fun d => { d with state := .suspended }) s fun _ => rfl).trans (finish_flightKept _ _ _)
  · exact finish_flightKept _ _ s

theorem hostRegionResume_flightKept (arg : BitVec 12) (s : State) : FlightKept s (s.hostRegionResume arg) := by
  unfold State.hostRegionResume
  split
  · exact finish_flightKept _ _ s
  split
  · exact (updRegion_flightKept _ (fun d => { d with state := .active }) s fun _ => rfl).trans (.aside rfl rfl rfl rfl)
  · exact finish_flightKept _ _ s

theorem setRetiring_flightKept (r : RegionId) (s : State) : FlightKept s (s.setRetiring r) :=
  (updRegion_flightKept r (fun d => { d with state := .retiring }) s fun _ => rfl).trans (.aside rfl rfl rfl rfl)

theorem hostRegionRetire_flightKept (arg : BitVec 12) (s : State) : FlightKept s (s.hostRegionRetire arg) := by
  unfold State.hostRegionRetire
  split
  · exact finish_flightKept _ _ s
  next r _ =>
  split
  · have asked : FlightKept (s.setRetiring r) ((s.setRetiring r).retireRequest r) :=
      settle_flightKept _ ((revokeAll_flightKept _ _ _).trans (dropWaiters_flightKept _ _ _))
    exact ((setRetiring_flightKept r s).trans asked).trans (retireTest_flightKept r _)
  · exact finish_flightKept _ _ s

theorem hostLeaseRevoke_flightKept (arg : BitVec 12) (s : State) : FlightKept s (s.hostLeaseRevoke arg) := by
  unfold State.hostLeaseRevoke
  split
  · exact finish_flightKept _ _ s
  split
  · exact finish_flightKept _ _ s
  · exact (settle_flightKept s (revoke_flightKept _ _ s)).trans (finish_flightKept _ _ _)

theorem hostPurge_flightKept (arg : BitVec 12) (s : State) : FlightKept s (s.hostPurge arg) := by
  unfold State.hostPurge
  split
  · exact finish_flightKept _ _ s
  next p _ =>
  have cleared : ∀ t : State, FlightKept t (t.updPort p fun q => { q with board := Vector.replicate 4 none }) := fun t =>
    updPort_flightKept p _ t fun _ => .of_eq rfl
  exact (settle_flightKept s ((freeTombstones_flightKept p s).trans (cleared _))).trans (finish_flightKept _ _ _)

theorem hostPortOnline_flightKept (arg : BitVec 12) (s : State) : FlightKept s (s.hostPortOnline arg) := by
  unfold State.hostPortOnline
  split
  · exact finish_flightKept _ _ s
  split
  · exact .trans (updRequester_flightKept _ _ s) (finish_flightKept _ _ _)
  · exact finish_flightKept _ _ s

theorem clearPort_flightKept (p : PortId) (s : State) : FlightKept s (s.clearPort p) :=
  updPort_flightKept p _ s fun _ => .of_eq rfl

theorem hostPortOffline_flightKept (arg : BitVec 12) (s : State) : FlightKept s (s.hostPortOffline arg) := by
  unfold State.hostPortOffline
  split
  · exact finish_flightKept _ _ s
  split
  · exact .trans (updRequester_flightKept _ _ s)
      ((clearRequest_flightKept _ _).trans ((clearPort_flightKept _ _).trans (finish_flightKept _ _ _)))
  · exact finish_flightKept _ _ s

theorem hostPortRestore_flightKept (arg : BitVec 12) (s : State) : FlightKept s (s.hostPortRestore arg) := by
  unfold State.hostPortRestore
  split
  · exact finish_flightKept _ _ s
  split
  · exact .trans (updRequester_flightKept _ _ s) (finish_flightKept _ _ _)
  · exact finish_flightKept _ _ s

theorem hostTargetClear_flightKept (arg : BitVec 12) (s : State) : FlightKept s (s.hostTargetClear arg) := by
  unfold State.hostTargetClear
  split
  · exact finish_flightKept _ _ s
  · exact .aside rfl rfl rfl rfl

theorem hostGoLive_flightKept (s : State) : FlightKept s s.hostGoLive := by
  unfold State.hostGoLive
  split
  · exact finish_flightKept _ _ s
  · exact .aside rfl rfl rfl rfl

theorem hostCommand_inFlightAgrees (code : BitVec 4) {s : State} (h : InFlightAgrees s) :
    InFlightAgrees (s.hostCommand code) := by
  unfold State.hostCommand
  split
  · have taken : InFlightAgrees { s with mgp := { s.mgp with hostCmd := code } } :=
      (FlightKept.aside rfl rfl rfl rfl).inFlightAgrees h
    unfold State.dispatch
    split
    · exact (hostGoLive_flightKept _).inFlightAgrees taken
    · exact (hostGroupSet_flightKept _ _).inFlightAgrees taken
    · exact (hostRegionCommit_flightKept _ _).inFlightAgrees taken
    · exact (hostRegionSuspend_flightKept _ _).inFlightAgrees taken
    · exact (hostRegionResume_flightKept _ _).inFlightAgrees taken
    · exact (hostRegionRetire_flightKept _ _).inFlightAgrees taken
    · exact (hostLeaseRevoke_flightKept _ _).inFlightAgrees taken
    · exact (hostPortOnline_flightKept _ _).inFlightAgrees taken
    · exact (hostPortOffline_flightKept _ _).inFlightAgrees taken
    · exact (hostPortRestore_flightKept _ _).inFlightAgrees taken
    · exact (hostPurge_flightKept _ _).inFlightAgrees taken
    · exact (hostTargetClear_flightKept _ _).inFlightAgrees taken
    · exact startSoftReset_inFlightAgrees taken
    · exact (finish_flightKept _ _ _).inFlightAgrees taken
  · exact (raise_flightKept _ s).inFlightAgrees h

/-! ## Registers and frames -/

theorem writeWindowBase_flightKept (v : Word) (s : State) : FlightKept s (s.writeWindowBase v) := by
  unfold State.writeWindowBase
  split
  · exact .aside rfl rfl rfl rfl
  · exact .refl s

theorem writeCrcControl_flightKept (v : Word) (s : State) : FlightKept s (s.writeCrcControl v) := by
  unfold State.writeCrcControl
  split
  · exact .aside rfl rfl rfl rfl
  · exact .aside rfl rfl rfl rfl
  · exact .refl s

theorem writeFaultConfig_flightKept (v : Word) (s : State) : FlightKept s (s.writeFaultConfig v) := by
  unfold State.writeFaultConfig
  dsimp only
  split
  · have lowered : FlightKept s (allPorts.foldl (fun s p => s.lowerQuarantine p)
        { s with ptc := { s.ptc with threshold := field v 0 5, limit := field v 8 3 } }) := by
      refine .trans ?_ (FlightKept.foldl (fun s p => ?_) allPorts _)
      · exact .aside rfl rfl rfl rfl
      · exact updRequester_flightKept p _ s
    split
    · refine .trans lowered (.trans ?_ (barRequest_flightKept _ _))
      refine FlightKept.foldl (fun s p => ?_) allPorts _
      split
      · exact enterBarring_flightKept p s
      · exact .refl s
    · exact lowered
  · exact .refl s

theorem writeRegister_inFlightAgrees (n : BitVec 7) (v : Word) {s : State} (h : InFlightAgrees s) :
    InFlightAgrees (s.writeRegister n v) := by
  have aside : ∀ {t : State}, t.le.leases = s.le.leases → t.ptc.ports = s.ptc.ports → t.mu.regions = s.mu.regions →
      t.bsq.hold = s.bsq.hold → InFlightAgrees t := fun hl hp hr hb => (FlightKept.aside hl hp hr hb).inFlightAgrees h
  have configured : ∀ p, InFlightAgrees (s.writePortConfig p v) := fun p =>
    (updRequester_flightKept p _ s).inFlightAgrees h
  unfold State.writeRegister
  split
  case h_1 => exact (writeCrcControl_flightKept v s).inFlightAgrees h
  case h_2 => exact (writeWindowBase_flightKept v s).inFlightAgrees h
  case h_8 => exact hostCommand_inFlightAgrees _ h
  case h_16 => exact configured 0
  case h_17 => exact configured 1
  case h_18 => exact configured 2
  case h_19 => exact configured 3
  case h_20 => exact (writeFaultConfig_flightKept v s).inFlightAgrees h
  all_goals exact aside rfl rfl rfl rfl

theorem ncsFall_flightKept (s : State) : FlightKept s s.ncsFall := by
  unfold State.ncsFall
  split
  · exact .aside rfl rfl rfl rfl
  · exact .refl s
  · exact .refl s

theorem sckRise_flightKept (sdi : Bool) (s : State) : FlightKept s (s.sckRise sdi) := by
  unfold State.sckRise
  split
  · exact .aside rfl rfl rfl rfl
  · exact .refl s
  · exact .refl s

theorem sckFall_flightKept (s : State) : FlightKept s s.sckFall := by
  unfold State.sckFall
  split
  · exact .aside rfl rfl rfl rfl
  · exact .refl s
  · exact .refl s

theorem takeFrame_inFlightAgrees (bits : List Bool) (crc : CrcConfig) {s : State} (h : InFlightAgrees s) :
    InFlightAgrees (s.takeFrame bits crc) := by
  unfold State.takeFrame
  split
  · exact (raise_flightKept _ s).inFlightAgrees h
  split
  · exact (raise_flightKept _ s).inFlightAgrees h
  split
  · exact writeRegister_inFlightAgrees _ _ h
  · exact h

theorem lowPeriod_inFlightAgrees (bits : List Bool) {s : State} (h : InFlightAgrees s) :
    InFlightAgrees (s.lowPeriod bits) := by
  have received : FlightKept s (bits.foldl (fun s b => (s.sckRise b).sckFall) s.ncsFall) :=
    (ncsFall_flightKept s).trans
      (FlightKept.foldl (fun s b => (sckRise_flightKept b s).trans (sckFall_flightKept _)) bits _)
  have high : ∀ {u : State}, InFlightAgrees u → InFlightAgrees (u.setReceiver .high) := fun hu =>
    (FlightKept.aside rfl rfl rfl rfl).inFlightAgrees hu
  unfold State.lowPeriod State.ncsRise
  split
  · exact takeFrame_inFlightAgrees _ _ (high (received.inFlightAgrees h))
  · exact high (received.inFlightAgrees h)
  · exact received.inFlightAgrees h

/-! ## A step -/

theorem assertReset_flightKept (p : PortId) (s : State) : FlightKept s (s.assertReset p) := by
  have entered : FlightKept s (s.enterReset p) := by
    unfold State.enterReset
    exact updPort_flightKept p _ s fun _ => ⟨rfl, rfl, rfl⟩
  exact (entered.trans (clearRequest_flightKept p _)).trans (clearPort_flightKept p _)

theorem deassertReset_inFlightAgrees (p : PortId) {s : State} (h : InFlightAgrees s) :
    InFlightAgrees (s.deassertReset p) :=
  takeStanding_inFlightAgrees p ((updRequester_flightKept p _ s).inFlightAgrees h)

theorem pinEvent_inFlightAgrees (e : PinEvent) {s : State} (h : InFlightAgrees s) : InFlightAgrees (s.pinEvent e) := by
  cases e with
  | refclk => exact (refclkPeriod_flightKept s).inFlightAgrees h
  | bclk ready data => exact bclkPeriod_inFlightAgrees ready data h
  | ncsFall => exact (ncsFall_flightKept s).inFlightAgrees h
  | sckRise sdi => exact (sckRise_flightKept sdi s).inFlightAgrees h
  | sckFall => exact (sckFall_flightKept s).inFlightAgrees h

theorem idleStep_inFlightAgrees {s : State} (h : InFlightAgrees s) : InFlightAgrees s.idleStep := by
  unfold State.idleStep
  split
  · exact (resumeScan_flightKept s).inFlightAgrees h
  split
  · exact takeStanding_inFlightAgrees _ h
  split
  · exact grantDecision_inFlightAgrees h
  split
  · exact h
  · exact pinEvent_inFlightAgrees _ ((FlightKept.aside rfl rfl rfl rfl).inFlightAgrees h)

theorem exec_inFlightAgrees {c : Instr} {s t : State} (h : InFlightAgrees s) (hc : exec c s = .next t) :
    InFlightAgrees t := by
  cases c <;> cases hc
  case powerOnReset | nreset => exact hardwareReset_inFlightAgrees s
  case rqrstAssertion p => exact (assertReset_flightKept p s).inFlightAgrees h
  case rqrstDeassertion p => exact deassertReset_inFlightAgrees p h
  case tick => exact (tick_flightKept s).inFlightAgrees h
  case leaseExpiry id => exact (expireOne_flightKept id s).inFlightAgrees h
  case waitBudgetExpiry => exact (settle_flightKept s (dropWaiters_flightKept _ _ s)).inFlightAgrees h
  case busGrantDecision => exact grantDecision_inFlightAgrees h
  case deviceCycleComplete data => exact cycleComplete_inFlightAgrees data h
  case busTimeoutExpiry => exact cycleTimeout_inFlightAgrees h
  case leaseDrainEnd id =>
    rw [drainOne_of_inFlightAgrees id h]
    exact h
  case retireCompletion r => exact (retireTest_flightKept r s).inFlightAgrees h
  case softResetCompletion => exact softResetReport_inFlightAgrees h
  case resumeGrantScan => exact (resumeScan_flightKept s).inFlightAgrees h
  case tableIndexWrite | eventFlagsWrite | eventEnableWrite =>
    exact (FlightKept.aside rfl rfl rfl rfl).inFlightAgrees h
  case windowBaseWrite v => exact (writeWindowBase_flightKept v s).inFlightAgrees h
  case faultConfigWrite v => exact (writeFaultConfig_flightKept v s).inFlightAgrees h
  case crcControlWrite v => exact (writeCrcControl_flightKept v s).inFlightAgrees h
  case registerWrite n v => exact writeRegister_inFlightAgrees n v h
  case ncsRise bits => exact lowPeriod_inFlightAgrees bits h
  case claim | renew | release | upgrade | downgrade | withdraw | query | lookup =>
    exact submitRow_inFlightAgrees _ _ _ _ h
  case accessArrival | requestWrite | resultRead | portStatusRead | noticeRead => exact present_inFlightAgrees _ _ h
  all_goals exact hostCommand_inFlightAgrees _ h

theorem step_inFlightAgrees {s t : State} (h : InFlightAgrees s) (hs : step s = .next t) : InFlightAgrees t := by
  unfold step at hs
  split at hs
  · cases hs
    exact idleStep_inFlightAgrees h
  · next c rest _ =>
    have taken : FlightKept s { s with pending := rest } := .aside rfl rfl rfl rfl
    exact exec_inFlightAgrees (taken.inFlightAgrees h) hs

/-- Settles O58: every step keeps the counts; four ports bound a region's count, and only a live lease is named. -/
theorem inFlightCountsAgree : Obligations.InFlightCountsAgree := by
  intro s t h hs
  obtain ⟨_, hcounted, _, hregion, _⟩ := step_inFlightAgrees h hs
  refine ⟨step_inFlightAgrees h hs, fun r => ?_, fun id hid => Bool.eq_false_of_not_eq_true fun hf => ?_⟩
  · rw [hregion]
    exact List.countP_le_length
  · have live := (hcounted id hf).1
    rcases hid with hid | hid
    · rw [live_false_of_free hid] at live
      cases live
    · rw [live_false_of_revoked hid] at live
      cases live

end Sys2Proof.Machine
end

section
/-! Accesses at the ports: presentations that wait (R26), the step on an empty queue (log 2), where an address goes (R13), the
judgement in order (R28 to R39), acceptance (R40) and the REQUEST write (R144). -/

namespace Sys2Proof.Machine

open Sys2Proof.Safety Sys2Proof.Claims

/-! ## Presentations -/

/-- Two changes of one port are one. -/
theorem updPort_updPort (s : State) (p : PortId) (f g : Port → Port) :
    (s.updPort p f).updPort p g = s.updPort p fun q => g (f q) := by
  unfold State.updPort
  simp

/-- R26: a port with nothing standing, an IDLE record and no reset takes an access and judges it. -/
theorem arrival_of_ready {s : State} {p : PortId} (h : Ready s p) (a : Presentation) :
    exec (.accessArrival p a) s = .next (s.carryOut p a) := by
  obtain ⟨hi, hr, hs⟩ := h
  exact congrArg Host.Outcome.next (present_of_idle a hi hr hs)

/-- R26: taking what stands leaves the port ready. -/
theorem ready_of_standing {s : State} {p : PortId} (h : (s.port p).access.state = .idle)
    (hr : (s.port p).requester.inReset = false) : Ready (s.updPort p fun q => { q with standing := none }) p := by
  rw [Ready, port_updPort_self]
  exact ⟨h, hr, rfl⟩

/-- Settles O8: the port cannot take the access, or it takes what stands there before it. -/
theorem presentationWaits : Obligations.PresentationWaits := by
  intro s p a
  refine ⟨fun h => congrArg Host.Outcome.next (present_of_busy a h), fun h hr b hb => ?_⟩
  exact ⟨_, arrival_of_ready (ready_of_standing h hr) b,
    congrArg Host.Outcome.next (present_of_standing a hb (canTake_iff.mpr ⟨h, hr⟩))⟩

/-! ## The step on an empty queue (log 2) -/

/-- A presentation stands at the port, and the port can take it. -/
abbrev Stands (s : State) (p : PortId) : Prop :=
  (s.port p).access.state = .idle ∧ (s.port p).requester.inReset = false ∧ (s.port p).standing ≠ none

theorem standing_none_of_not_stands {s : State} {p : PortId} (h : ¬Stands s p) (hc : s.canTake p = true) :
    (s.port p).standing = none := by
  obtain ⟨hi, hr⟩ := canTake_iff.mp hc
  by_contra hs
  exact h ⟨hi, hr, hs⟩

theorem step_of_empty {s : State} (h : s.pending = []) : step s = .next s.idleStep := by
  unfold step
  rw [h]

theorem takeablePort_eq_none {s : State} (h : ∀ p : PortId, ¬Stands s p) : s.takeablePort = none :=
  takeablePort_none fun p => standing_none_of_not_stands (h p)

section Idle

variable {s : State}

theorem idleStep_of_scan (h : s.le.resumeScans ≠ 0) : s.idleStep = s.resumeScan := if_pos h

variable (hscan : s.le.resumeScans = 0)
include hscan

theorem idleStep_of_standing {p : PortId} {a : Presentation} (hs : Stands s p) (hlow : ∀ q : PortId, q < p → ¬Stands s q)
    (ha : (s.port p).standing = some a) :
    s.idleStep = (s.updPort p fun q => { q with standing := none }).carryOut p a := by
  obtain ⟨hi, hr, _⟩ := hs
  have hc := canTake_iff.mpr ⟨hi, hr⟩
  have takes : s.takeablePort = some (p, a) :=
    takeablePort_some hc ha fun q hq => standing_none_of_not_stands (hlow q hq)
  unfold State.idleStep
  rw [if_neg (by simp [hscan]), takes]
  exact takeStanding_of_some ha hc

variable (hnone : ∀ p : PortId, ¬Stands s p)
include hnone

/-- Where no presentation can be taken, a due grant decision comes first. -/
theorem idleStep_of_due (hd : s.decisionDue = true) : s.idleStep = s.grantDecision := by
  unfold State.idleStep
  rw [if_neg (by simp [hscan]), takeablePort_eq_none hnone]
  exact if_pos hd

variable (hd : s.decisionDue = false)
include hd

theorem idleStep_of_nothing (hi : s.inputs = []) : s.idleStep = s := by
  unfold State.idleStep
  rw [if_neg (by simp [hscan]), takeablePort_eq_none hnone, hi]
  exact if_neg (by simp [hd])

theorem idleStep_of_pin {e : PinEvent} {rest : List PinEvent} (hi : s.inputs = e :: rest) :
    s.idleStep = State.pinEvent e { s with inputs := rest } := by
  unfold State.idleStep
  rw [if_neg (by simp [hscan]), takeablePort_eq_none hnone, hi]
  exact if_neg (by simp [hd])

end Idle

/-! The end of one BCLK period (R124, R128), with the cycle of hold `h` on the bus. -/

section Period

variable {s : State} {h : BusHold} (hh : s.bsq.hold = some h) (ready : Bool) (data : Word)
include hh

/-- R124: the period is the last of an INTERNAL cycle, or ready is seen in it. -/
theorem bclkPeriod_of_complete (hw : (s.port h.port).access.cycle.waits.toNat + 1 ≤ h.periods + 1)
    (hr : (s.port h.port).access.cycle.ready = .internal ∨ ready = true) :
    s.bclkPeriod ready data = s.cycleComplete data := by
  unfold State.bclkPeriod
  rw [hh]
  dsimp only
  rw [if_pos]
  simpa [hw] using hr

variable (hn : h.periods + 1 < (s.port h.port).access.cycle.waits.toNat + 1 ∨
  ((s.port h.port).access.cycle.ready = .external ∧ ready = false))
include hn

theorem bclkPeriod_of_incomplete :
    s.bclkPeriod ready data =
      if (s.port h.port).access.cycle.ready == .external && decide (h.timeout ≤ h.periods + 1) then s.cycleTimeout
      else s.setHold (some { h with periods := h.periods + 1 }) := by
  unfold State.bclkPeriod
  rw [hh]
  dsimp only
  rw [if_neg]
  rcases hn with hn | ⟨he, hf⟩
  · simp [Nat.not_le.mpr hn]
  · simp [he, hf]

theorem bclkPeriod_of_timeout (he : (s.port h.port).access.cycle.ready = .external) (ht : h.timeout ≤ h.periods + 1) :
    s.bclkPeriod ready data = s.cycleTimeout := by
  rw [bclkPeriod_of_incomplete hh ready data hn, if_pos]
  simp [he, ht]

theorem bclkPeriod_of_counted (hk : (s.port h.port).access.cycle.ready = .internal ∨ h.periods + 1 < h.timeout) :
    s.bclkPeriod ready data = s.setHold (some { h with periods := h.periods + 1 }) := by
  rw [bclkPeriod_of_incomplete hh ready data hn, if_neg]
  rcases hk with hk | hk
  · simp [hk]
  · simp [Nat.not_le.mpr hk]

end Period

theorem bclkPeriod_of_free {s : State} (h : s.bsq.hold = none) (ready : Bool) (data : Word) :
    s.bclkPeriod ready data = s := by
  unfold State.bclkPeriod
  rw [h]

theorem refclkPeriod_of_boot {s : State} (h : s.mu.map = .boot) : s.refclkPeriod = s := if_pos h

theorem refclkPeriod_of_live {s : State} (h : s.mu.map = .live) :
    s.refclkPeriod = if s.divider ≤ 1 then s.tick else { s with divider := s.divider - 1 } :=
  if_neg (by rw [h]; decide)

/-- R172: a fall of nCS while it stands high begins a frame; elsewhere it is no fall. -/
theorem ncsFall_of_high {s : State} (h : s.mgp.receiver = .high) :
    s.ncsFall = { s with mgp := { s.mgp with receiver := .receiving [] 0#32 s.mgp.crc 0 } } := by
  unfold State.ncsFall
  rw [h]
  rfl

theorem ncsFall_of_ne_high {s : State} (h : s.mgp.receiver ≠ .high) : s.ncsFall = s := by
  unfold State.ncsFall
  split
  · contradiction
  · rfl
  · rfl

/-- Settles O2: the branches of the step in their order, and each pin event by its own cases. -/
theorem emptyQueueStep : Obligations.EmptyQueueStep := by
  intro s hp
  dsimp only
  simp only [step_of_empty hp]
  have next : ∀ {t u : State}, t = u → (Host.Outcome.next t : Host.Outcome State Fault Refusal) = .next u :=
    fun h => congrArg Host.Outcome.next h
  refine ⟨fun hs => next (idleStep_of_scan hs), fun hs => ⟨fun p hst hlow a ha => ?_, fun hnone => ?_⟩⟩
  · rw [idleStep_of_standing hs hst hlow ha]
    obtain ⟨hi, hr, _⟩ := hst
    rw [arrival_of_ready (ready_of_standing hi hr)]
  refine ⟨fun hdue => next (idleStep_of_due hs hnone (decisionDue_iff.mpr hdue)), fun hdue => ?_⟩
  have hd : s.decisionDue = false := Bool.eq_false_of_not_eq_true fun k => hdue (decisionDue_iff.mp k)
  refine ⟨fun hi => next (idleStep_of_nothing hs hnone hd hi), fun e rest hi => ?_⟩
  rw [idleStep_of_pin hs hnone hd hi]
  refine ⟨?refclk, ?bclk, ?ncsFall, ?sckRise, ?sckFall⟩
  case refclk =>
    rintro rfl
    refine ⟨fun hb => next (refclkPeriod_of_boot hb), fun hl h1 => ?_, fun hl h2 => ?_⟩
    · exact next ((refclkPeriod_of_live (by exact hl)).trans (if_pos h1))
    · exact next ((refclkPeriod_of_live (by exact hl)).trans (if_neg (Nat.not_le.mpr h2)))
  case bclk =>
    rintro ready data rfl
    refine ⟨fun hf => next (bclkPeriod_of_free (by exact hf) ready data), fun h hh => ⟨fun hint => ⟨fun hw => ?_, fun hw => ?_⟩,
      fun hext => ⟨fun hw hr => ?_, fun hn => ⟨fun ht => ?_, fun ht => ?_⟩⟩⟩⟩
    · exact next (bclkPeriod_of_complete (by exact hh) ready data hw (.inl hint))
    · exact next (bclkPeriod_of_counted (by exact hh) ready data (.inl hw) (.inl hint))
    · exact next (bclkPeriod_of_complete (by exact hh) ready data hw (.inr hr))
    · exact next (bclkPeriod_of_timeout (by exact hh) ready data (hn.imp_right fun hr => ⟨hext, hr⟩) hext ht)
    · exact next (bclkPeriod_of_counted (by exact hh) ready data (hn.imp_right fun hr => ⟨hext, hr⟩) (.inr ht))
  case ncsFall =>
    rintro rfl
    exact ⟨fun hh => next (ncsFall_of_high hh), fun hh => next (ncsFall_of_ne_high hh)⟩
  case sckRise =>
    rintro b rfl
    rfl
  case sckFall =>
    rintro rfl
    rfl

/-! ## Where an address goes (R13) -/

theorem inGroup_iff {m : MapUnit} {g : GroupId} {x : Word} :
    ((m.groups[g]).valid && (m.groups[g]).extent.contains x) = true ↔ InGroup m g x := by
  rw [Bool.and_eq_true, AddrRange.contains_iff]
  rfl

theorem inSlot_iff {m : MapUnit} {g : GroupId} {r : RegionId} {x : Word} :
    (r ∈ slotsOf g ∧ ((m.regions[r]).state != .invalid && (m.extent r).contains x) = true) ↔ InSlot m g r x := by
  rw [mem_slotsOf, Bool.and_eq_true, bne_iff_ne, AddrRange.contains_iff]
  have owner : groupOf r = g ↔ r.val / 8 = g.val := by rw [Fin.ext_iff]; rfl
  constructor
  · rintro ⟨rfl, hi, hx⟩
    exact ⟨rfl, hi, hx⟩
  · rintro ⟨hg, hi, hx⟩
    obtain rfl := owner.mpr hg
    exact ⟨rfl, hi, hx⟩

theorem groupAt_eq_none {m : MapUnit} {x : Word} (h : ∀ g : GroupId, ¬InGroup m g x) : m.groupAt x = none := by
  unfold MapUnit.groupAt
  rw [List.find?_eq_none]
  exact fun g _ k => h g (inGroup_iff.mp k)

theorem groupAt_eq_some {m : MapUnit} {x : Word} {g : GroupId} (h : InGroup m g x)
    (ho : ∀ k : GroupId, k ≠ g → ¬InGroup m k x) : m.groupAt x = some g := by
  unfold MapUnit.groupAt
  rw [find?_ascending_iff allGroups_ascending]
  refine ⟨⟨mem_allGroups g, inGroup_iff.mpr h⟩, fun k _ hlt => Bool.eq_false_of_not_eq_true fun hk => ?_⟩
  exact ho k hlt.ne (inGroup_iff.mp hk)

theorem slotAt_eq_none {m : MapUnit} {g : GroupId} {x : Word} (h : ∀ r : RegionId, ¬InSlot m g r x) :
    m.slotAt g x = none := by
  unfold MapUnit.slotAt
  rw [List.find?_eq_none]
  exact fun r hr k => h r (inSlot_iff.mp ⟨hr, k⟩)

theorem slotAt_eq_some {m : MapUnit} {g : GroupId} {x : Word} {r : RegionId} (h : InSlot m g r x)
    (hlow : ∀ k : RegionId, k < r → ¬InSlot m g k x) : m.slotAt g x = some r := by
  unfold MapUnit.slotAt
  rw [find?_ascending_iff (slotsOf_ascending g)]
  refine ⟨inSlot_iff.mpr h, fun k hk hlt => Bool.eq_false_of_not_eq_true fun ht => ?_⟩
  exact hlow k hlt (inSlot_iff.mp ⟨hk, ht⟩)

theorem window_contains_iff {m : MapUnit} {x : Word} : m.window.contains x = true ↔ Spans m.windowBase 12 x :=
  AddrRange.contains_iff

theorem decode_of_window {m : MapUnit} {x : Word} (h : Spans m.windowBase 12 x) (p : PortId) (dir : Direction) :
    m.decode p dir x = .window := if_pos (window_contains_iff.mpr h)

theorem decode_of_boot {m : MapUnit} {x : Word} (h : ¬Spans m.windowBase 12 x) (hb : m.map = .boot) (p : PortId)
    (dir : Direction) : m.decode p dir x = if p = 0 ∧ dir = .read then .bootRead else .mapBoot := by
  unfold MapUnit.decode
  rw [if_neg (mt window_contains_iff.mp h), if_pos hb]

theorem decode_of_live {m : MapUnit} {x : Word} (h : ¬Spans m.windowBase 12 x) (hl : m.map = .live) (p : PortId)
    (dir : Direction) : m.decode p dir x = m.decodeLive x := by
  unfold MapUnit.decode
  rw [if_neg (mt window_contains_iff.mp h), if_neg (by rw [hl]; decide)]

/-- R13, R14: MU sends every address where the rules say. -/
theorem decode_goes (m : MapUnit) (p : PortId) (dir : Direction) (x : Word) :
    AddressGoes m p dir x (m.decode p dir x) := by
  refine ⟨fun hw => decode_of_window hw p dir, fun hw hb => decode_of_boot hw hb p dir, fun hw hl => ?_⟩
  rw [decode_of_live hw hl]
  unfold MapUnit.decodeLive
  refine ⟨fun hn => by rw [groupAt_eq_none hn], fun g hg ho => ?_⟩
  rw [groupAt_eq_some hg ho]
  dsimp only
  refine ⟨fun hn => by rw [slotAt_eq_none hn], fun r hr hlow => ?_⟩
  rw [slotAt_eq_some hr hlow]

/-! ## The judgement (R28 to R39) -/

/-- R30: the exception of check 2 is for aligned reads of the four words from 0x030 to 0x03C of the window. -/
theorem barredException_iff {s : State} {a : Presentation} :
    s.barredException a = true ↔ a.dir = .read ∧ Aligned a ∧ s.mu.windowBase.toNat + 0x30 ≤ a.addr.toNat ∧
      a.addr.toNat < s.mu.windowBase.toNat + 0x40 := by
  have word : (s.mu.windowSlot a.addr).barredMayRead = true ↔
      12 ≤ (a.addr - s.mu.windowBase).toNat / 4 ∧ (a.addr - s.mu.windowBase).toNat / 4 ≤ 15 := by
    unfold MapUnit.windowSlot
    generalize (a.addr - s.mu.windowBase).toNat / 4 = k
    split
    case h_14 n12 n13 n14 n15 =>
      have other : k ≠ 12 ∧ k ≠ 13 ∧ k ≠ 14 ∧ k ≠ 15 := ⟨n12, n13, n14, n15⟩
      simp only [WindowSlot.barredMayRead, Bool.false_eq_true, false_iff]
      omega
    all_goals simp [WindowSlot.barredMayRead]
  have offset : s.mu.windowBase.toNat ≤ a.addr.toNat →
      (a.addr - s.mu.windowBase).toNat = a.addr.toNat - s.mu.windowBase.toNat := BitVec.toNat_sub_of_le
  unfold State.barredException
  rw [Bool.and_eq_true, Bool.and_eq_true, Bool.and_eq_true, beq_iff_eq, naturallyAligned_iff, window_contains_iff, word]
  constructor
  · rintro ⟨⟨⟨hd, ha⟩, hlo, _⟩, h12, h15⟩
    rw [offset hlo] at h12 h15
    exact ⟨hd, ha, by omega, by omega⟩
  · rintro ⟨hd, ha, hlo, hhi⟩
    rw [offset (by omega)]
    exact ⟨⟨⟨hd, ha⟩, by omega, by omega⟩, by omega, by omega⟩

theorem allow_iff {x : Rights} {dir : Direction} :
    x.allow dir = true ↔ x = .readWrite ∨ (x = .read ∧ dir = .read) := by
  cases x <;> cases dir <;> decide

theorem needsLease_iff {x : Policy} {dir : Direction} :
    x.needsLease dir = true ↔ x = .allLeased ∨ (x = .writeLeased ∧ dir = .write) := by
  cases x <;> cases dir <;> decide

theorem sufficient_iff {x : Mode} {dir : Direction} : x.sufficient dir = true ↔ x = .exclusive ∨ dir = .read := by
  cases x <;> cases dir <;> decide

/-- R38: lease `id` covers an access of requester `p`. -/
abbrev Covers (s : State) (p : PortId) (dir : Direction) (x : Word) (id : LeaseId) : Prop :=
  (s.lease id).state = .held ∧ (s.lease id).holder = p ∧
  Spans (s.lease id).range.start (s.lease id).range.exp.toNat x ∧ ((s.lease id).mode = .exclusive ∨ dir = .read)

theorem covers_iff {s : State} {p : PortId} {dir : Direction} {x : Word} {id : LeaseId} :
    ((s.lease id).state = .held ∧ (s.lease id).holder = p ∧ (s.lease id).range.contains x = true ∧
      (s.lease id).mode.sufficient dir = true) ↔ Covers s p dir x id := by
  rw [AddrRange.contains_iff, sufficient_iff]
  rfl

theorem cover_eq_some {s : State} {p : PortId} {dir : Direction} {x : Word} {id : LeaseId} (h : Covers s p dir x id)
    (hlow : ∀ j : LeaseId, j < id → ¬Covers s p dir x j) : s.cover p dir x = some id :=
  cover_iff.mpr ⟨covers_iff.mpr h, fun j hj k => hlow j hj (covers_iff.mp k)⟩

theorem covers_of_cover {s : State} {p : PortId} {dir : Direction} {x : Word} {id : LeaseId}
    (h : s.cover p dir x = some id) : Covers s p dir x id :=
  covers_iff.mp (cover_iff.mp h).1

theorem cover_eq_none {s : State} {p : PortId} {dir : Direction} {x : Word} (h : ∀ id : LeaseId, ¬Covers s p dir x id) :
    s.cover p dir x = none := by
  cases hc : s.cover p dir x with
  | none => rfl
  | some id => exact absurd (covers_of_cover hc) (h id)

theorem cover_ne_none {s : State} {p : PortId} {dir : Direction} {x : Word} {id : LeaseId} (h : Covers s p dir x id) :
    s.cover p dir x ≠ none := by
  intro hc
  have test := find_allLeases_none hc id
  have := covers_iff.mpr h
  simp [this] at test

/-- R29: checks 5 to 11, by where the address goes. -/
def State.verdictAt (s : State) (p : PortId) (a : Presentation) : Decoded → Verdict
  | .window => .window
  | .mapBoot => .refuse .mapBoot
  | .bootRead => s.checkTarget none none bootCycle
  | .noRegion => .refuse .noRegion
  | .inactive _ => .refuse .regionInactive
  | .region r => s.judgeRegion p a r

/-- Checks 1 and 2 pass. -/
abbrev Passes12 (s : State) (p : PortId) (a : Presentation) : Prop :=
  (s.port p).requester.state = .online ∨ ((s.port p).requester.state ≠ .offline ∧ s.barredException a = true)

section Judge

variable {s : State} {p : PortId} {a : Presentation}

theorem judge_of_offline (h : (s.port p).requester.state = .offline) : s.judge p a = .refuse .portOffline := if_pos h

theorem judge_of_barred (h : (s.port p).requester.state = .quarantined ∨ (s.port p).requester.state = .lockedOut)
    (hx : s.barredException a = false) : s.judge p a = .refuse .portBarred := by
  have on : (s.port p).requester.state ≠ .offline := by rcases h with h | h <;> rw [h] <;> decide
  unfold State.judge
  dsimp only
  rw [if_neg on, if_pos ⟨h, hx⟩]

variable (h : Passes12 s p a)
include h

/-- R29: with checks 1 and 2 passed, the rest follow in order. -/
theorem judge_of_passes12 :
    s.judge p a =
      if s.mgp.unit = .softResetting then .refuse .resetting
      else if naturallyAligned a = false then .refuse .align
      else s.verdictAt p a (s.mu.decode p a.dir a.addr) := by
  have on : (s.port p).requester.state ≠ .offline := by
    rcases h with h | ⟨h, _⟩
    · rw [h]
      decide
    · exact h
  have unbarred : ¬(((s.port p).requester.state = .quarantined ∨ (s.port p).requester.state = .lockedOut) ∧
      s.barredException a = false) := by
    rintro ⟨hb, hx⟩
    rcases h with h | ⟨_, h⟩
    · simp [h] at hb
    · rw [h] at hx
      cases hx
  unfold State.judge
  dsimp only
  rw [if_neg on, if_neg unbarred]
  rfl

theorem judge_of_resetting (hu : s.mgp.unit = .softResetting) : s.judge p a = .refuse .resetting := by
  rw [judge_of_passes12 h, if_pos hu]

variable (hu : s.mgp.unit ≠ .softResetting)
include hu

theorem judge_of_misaligned (ha : ¬Aligned a) : s.judge p a = .refuse .align := by
  rw [judge_of_passes12 h, if_neg hu, if_pos (Bool.eq_false_of_not_eq_true (mt naturallyAligned_iff.mp ha))]

theorem judge_of_passes (ha : Aligned a) : s.judge p a = s.verdictAt p a (s.mu.decode p a.dir a.addr) := by
  rw [judge_of_passes12 h, if_neg hu, if_neg (by rw [naturallyAligned_iff.mpr ha]; decide)]

end Judge

/-! Checks 9 to 11 in a region. -/

section JudgeRegion

variable {s : State} {p : PortId} {a : Presentation} {r : RegionId}

theorem judgeRegion_of_rights (h : ((s.region r).rights[p]).allow a.dir = false) :
    s.judgeRegion p a r = .refuse .rights := if_pos h

variable (h : ((s.region r).rights[p]).allow a.dir = true)
include h

theorem judgeRegion_of_no_lease (hn : (s.region r).policy.needsLease a.dir = true)
    (hc : ∀ id : LeaseId, ¬Covers s p a.dir a.addr id) : s.judgeRegion p a r = .refuse .noLease := by
  unfold State.judgeRegion
  dsimp only
  rw [if_neg (by rw [h]; decide), if_pos hn, cover_eq_none hc]

theorem judgeRegion_of_lease (hn : (s.region r).policy.needsLease a.dir = true) {id : LeaseId}
    (hc : s.cover p a.dir a.addr = some id) :
    s.judgeRegion p a r = s.checkTarget (some r) (some (id, (s.lease id).generation)) (s.region r).cycle := by
  unfold State.judgeRegion
  dsimp only
  rw [if_neg (by rw [h]; decide), if_pos hn, hc]

theorem judgeRegion_of_open (hn : (s.region r).policy.needsLease a.dir = false) :
    s.judgeRegion p a r = s.checkTarget (some r) none (s.region r).cycle := by
  unfold State.judgeRegion
  dsimp only
  rw [if_neg (by rw [h]; decide), if_neg (by simp [hn])]

end JudgeRegion

theorem checkTarget_of_faulted {s : State} {cycle : CycleFields} (h : (s.target cycle.target).state = .faulted)
    (region : Option RegionId) (lease : Option (LeaseId × Generation)) :
    s.checkTarget region lease cycle = .refuse .targetFaulted := if_pos h

theorem checkTarget_of_online {s : State} {cycle : CycleFields} (h : (s.target cycle.target).state = .online)
    (region : Option RegionId) (lease : Option (LeaseId × Generation)) :
    s.checkTarget region lease cycle = .accept region lease cycle := if_neg (by rw [h]; decide)

/-- R36 to R39: the target is looked at once the rights allow the access and a lease covers it where one is needed. -/
theorem judgeRegion_of_faulted {s : State} {p : PortId} {a : Presentation} {r : RegionId}
    (h : ((s.region r).rights[p]).allow a.dir = true)
    (hc : (s.region r).policy.needsLease a.dir = true → ∃ id : LeaseId, Covers s p a.dir a.addr id)
    (ht : (s.target (s.region r).cycle.target).state = .faulted) : s.judgeRegion p a r = .refuse .targetFaulted := by
  cases hn : (s.region r).policy.needsLease a.dir with
  | false => rw [judgeRegion_of_open h hn, checkTarget_of_faulted ht]
  | true =>
    obtain ⟨id, hid⟩ := hc hn
    obtain ⟨j, hj⟩ := Option.ne_none_iff_exists'.mp (cover_ne_none hid)
    rw [judgeRegion_of_lease h hn hj, checkTarget_of_faulted ht]

/-- Settles O9: where the address goes, and each check by the lemma that names it. -/
theorem judgementFollowsTheOrder : Obligations.JudgementFollowsTheOrder := by
  intro s p a
  dsimp only
  rw [← barredException_iff]
  refine ⟨decode_goes s.mu p a.dir a.addr, judge_of_offline, fun hb hx => judge_of_barred hb (by simpa using hx),
    judge_of_resetting, fun ⟨h12, hu⟩ ha => judge_of_misaligned h12 hu ha, ?_⟩
  have verdict : ∀ {d : Decoded}, (Passes12 s p a ∧ s.mgp.unit ≠ .softResetting) ∧ Aligned a →
      s.mu.decode p a.dir a.addr = d → s.judge p a = s.verdictAt p a d := fun ⟨⟨h12, hu⟩, ha⟩ hd => by
    rw [judge_of_passes h12 hu ha, hd]
  refine ⟨verdict, verdict, verdict, fun h r hd => verdict h hd, fun h r hd => ?_, fun h hd ht => ?_⟩
  · rw [verdict h hd]
    simp only [← allow_iff, ← needsLease_iff]
    exact ⟨fun hr => judgeRegion_of_rights (Bool.eq_false_of_not_eq_true hr), judgeRegion_of_no_lease, judgeRegion_of_faulted⟩
  · exact (verdict h hd).trans (checkTarget_of_faulted ht _ _)

/-! ## Acceptance (R40) -/

/-- R40: setting the in-flight count of a HELD lease changes its record alone. -/
theorem putLease_inFlight {s : State} {id : LeaseId} (h : (s.lease id).state = .held) :
    s.putLease id { s.lease id with inFlight := true } = SetLease id { s.lease id with inFlight := true } s :=
  putLease_eq Iff.rfl (by rw [h]; decide) (show (s.lease id).state ≠ .revoked by rw [h]; decide)

/-- R26, R40: a ready port accepts an access that is judged so. -/
theorem arrival_of_accept {s : State} {p : PortId} {a : Presentation} {region : Option RegionId}
    {lease : Option (LeaseId × Generation)} {cycle : CycleFields} (h : Ready s p)
    (hj : s.judge p a = .accept region lease cycle) :
    exec (.accessArrival p a) s = .next (s.accept p a region lease cycle) := by
  rw [arrival_of_ready h]
  unfold State.carryOut
  rw [hj]

/-- Settles O11: the judgement accepts by the checks of R35 to R39, and acceptance fills the record. -/
theorem accessIsAccepted : Obligations.AccessIsAccepted := by
  intro s p a r hready hq hu ha
  dsimp only
  have verdict := judge_of_passes (.inl hq) hu ha
  refine ⟨fun hd hr ht => ?_, fun hb hw hp hdir ht => ?_⟩
  · rw [hd] at verdict
    rw [← allow_iff] at hr
    simp only [← needsLease_iff]
    refine ⟨fun hn => ?_, fun hn id hc hlow => ?_⟩
    · have judged := (verdict.trans (judgeRegion_of_open hr (Bool.eq_false_of_not_eq_true hn))).trans
        (checkTarget_of_online ht _ _)
      rw [arrival_of_accept hready judged]
      rfl
    · have judged := (verdict.trans (judgeRegion_of_lease hr hn (cover_eq_some hc hlow))).trans
        (checkTarget_of_online ht _ _)
      rw [arrival_of_accept hready judged]
      unfold State.accept
      dsimp only
      rw [putLease_inFlight (by exact hc.1)]
      rfl
  · rw [decode_of_boot hw hb, if_pos ⟨hp, hdir⟩] at verdict
    have judged := verdict.trans (checkTarget_of_online (cycle := bootCycle) ht none none)
    rw [arrival_of_accept hready judged]
    rfl

/-! ## A REQUEST write (R144) -/

theorem alignedEnables_iff (be : BitVec 4) :
    alignedEnables be = true ↔ ∃ w ∈ [1, 2, 4], ∃ i : Fin 4, Names be w i ∧ i.val % w = 0 := by
  revert be
  decide

theorem enables_of_names (be : BitVec 4) (w : Fin 5) (i : Fin 4) (hw : 1 ≤ w) (h : Names be w.val i) :
    enabledCount be = w.val ∧ lowestLane be = i.val := by
  revert be w i
  decide

theorem laneMask_getLsbD (be : BitVec 4) (i : Fin 32) :
    (laneMask be).getLsbD i.val = be.getLsbD (i.val / 8) := by
  revert be i
  decide

/-- R186: the REQUEST words stand at the first four word offsets of the window. -/
theorem windowSlot_request {s : State} (h : WindowAligned s) {be : BitVec 4} (hb : alignedEnables be = true) (k : Fin 4) :
    s.mu.windowSlot (s.mu.windowBase + BitVec.ofNat 32 (4 * k.val + lowestLane be)) = .request k := by
  unfold MapUnit.windowSlot
  rw [windowSlot_offset h hb (by omega) (by omega), Nat.mul_div_cancel_left k.val (by decide)]
  fin_cases k <;> rfl

/-- Settles O13: the enables by inspection, and the write by the window word its address reaches. -/
theorem requestWriteReplacesBytes : Obligations.RequestWriteReplacesBytes := by
  intro s p k be data
  refine ⟨alignedEnables_iff be, enables_of_names be, laneMask_getLsbD be, fun ⟨⟨hi, hr, hs⟩, hq, hu, hw⟩ hb => ?_⟩
  have reached : s.present p (s.windowPresentation .write (4 * k.val) be data) = _ :=
    present_window hi hr hs hq hu hw hb (by omega) (by omega) .write data
  refine congrArg Host.Outcome.next (reached.trans ?_)
  unfold State.windowAccess State.windowPresentation
  dsimp only
  rw [windowSlot_request hw hb]
  exact updPort_updPort s p _ _

end Sys2Proof.Machine
end

section
/-! A refused access (R42 to R44, R160, R161, R163): the revocations, drops and the scan of a barring, at the slots, the waiters,
the boards and the flags; then the fault that brings it. -/

namespace Sys2Proof.Machine

open Sys2Proof.Safety Sys2Proof.Claims

/-! ## Tombstone counts -/

/-- R149: a revocation leaves the tombstone counts of requesters other than the holder. -/
theorem tombstones_revoke_ne (x : RevokeReason) {id : LeaseId} {s : State} {q : PortId} (h : (s.lease id).holder ≠ q) :
    ((s.revoke x id).port q).tombstones = (s.port q).tombstones := by
  unfold State.revoke State.freeLease
  dsimp only
  split
  · rfl
  split
  · simp [port_putLease, h]
  split
  · simp [port_putLease, h, Lease.freeWith]
  · simp [port_putLease, h]

theorem tombstones_revokeAll {x : RevokeReason} {which : Lease → Bool} {q : PortId}
    (h : ∀ l : Lease, which l = true → l.holder ≠ q) (s : State) :
    ((s.revokeAll x which).port q).tombstones = (s.port q).tombstones := by
  unfold State.revokeAll
  generalize allLeases = ids
  induction ids generalizing s with
  | nil => rfl
  | cons id ids ih =>
    rw [List.foldl_cons, ih]
    split
    · next hw => exact tombstones_revoke_ne x (h _ hw)
    · rfl

theorem tombstones_dropWaiters (out : Waiter → Bool) (reason : DropReason) (s : State) (q : PortId) :
    ((s.dropWaiters out reason).port q).tombstones = (s.port q).tombstones := by
  unfold State.dropWaiters
  generalize s.le.waiters.filter out = l
  change _ = ((s.setWaiters (s.le.waiters.filter fun w => !out w)).port q).tombstones
  generalize s.setWaiters (s.le.waiters.filter fun w => !out w) = u
  induction l generalizing u with
  | nil => rfl
  | cons w l ih =>
    rw [List.foldl_cons, ih, port_placeNotice]
    split <;> rfl

/-! ## The barring at LE (R91, R163) -/

/-- R163: the HELD leases of the requesters barred are revoked and their waiters dropped, the scan still to come. -/
def State.beginBar (who : PortId → Bool) (s : State) : State :=
  (s.revokeAll .portBarred fun l => who l.holder).dropWaiters (fun w => who w.requester) .portBarred

theorem lease_beginBar (who : PortId → Bool) (s : State) (id : LeaseId) :
    (s.beginBar who).lease id =
      if (s.lease id).state = .held ∧ who (s.lease id).holder = true then Revoked .portBarred (s.lease id)
      else s.lease id := by
  rw [State.beginBar, lease_dropWaiters, lease_revokeAll (by decide)]

theorem mem_waiters_beginBar {who : PortId → Bool} {s : State} {w : Waiter} :
    w ∈ (s.beginBar who).le.waiters ↔ w ∈ s.le.waiters ∧ who w.requester = false := by
  rw [State.beginBar, waiters_dropWaiters, waiters_revokeAll]
  simp

theorem waiters_beginBar_sublist (who : PortId → Bool) (s : State) :
    (s.beginBar who).le.waiters.Sublist s.le.waiters := by
  rw [State.beginBar, waiters_dropWaiters, waiters_revokeAll]
  exact List.filter_sublist

theorem board_beginBar (who : PortId → Bool) (s : State) (p : PortId) (tag : Tag) :
    ((s.beginBar who).port p).board[tag] =
      if ∃ w ∈ s.le.waiters, who w.requester = true ∧ Under p tag w then some (.dropped .portBarred)
      else (s.port p).board[tag] := by
  rw [State.beginBar, board_dropWaiters, waiters_revokeAll]
  simp only [board_revokeAll]

theorem mgp_beginBar (who : PortId → Bool) (s : State) : (s.beginBar who).mgp = s.mgp := by
  rw [State.beginBar, mgp_dropWaiters, mgp_revokeAll]

theorem beginBar_leaseWork (who : PortId → Bool) (s : State) : LeaseWork s (s.beginBar who) :=
  (revokeAll_leaseWork _ _ s).trans (dropWaiters_leaseWork _ _ _)

theorem lease_beginBar_of_free {who : PortId → Bool} {s : State} {id : LeaseId} (h : (s.lease id).state = .free) :
    (s.beginBar who).lease id = s.lease id := by
  rw [lease_beginBar, if_neg (by simp [h])]

theorem free_of_beginBar {who : PortId → Bool} {s : State} {id : LeaseId}
    (h : ((s.beginBar who).lease id).state = .free) : (s.lease id).state = .free := by
  rw [lease_beginBar] at h
  split at h
  · rw [Revoked_state] at h
    split at h <;> cases h
  · exact h

/-- Slots in use keep through the scan the record that the barring gave them. -/
theorem lease_barRequest {who : PortId → Bool} {s : State} {id : LeaseId} (h : (s.lease id).state ≠ .free) :
    (s.barRequest who).lease id = (s.beginBar who).lease id :=
  lease_grantScan_of_ne_free _ id fun k => h (free_of_beginBar k)

theorem barRequest_done (who : PortId → Bool) (s : State) : ScanDone (s.barRequest who) :=
  grantScan_done (s.beginBar who)

theorem mem_waiters_barRequest {who : PortId → Bool} {s : State} {w : Waiter} (h : w ∈ (s.barRequest who).le.waiters) :
    w ∈ s.le.waiters ∧ who w.requester = false :=
  mem_waiters_beginBar.mp ((waiters_grantScan_sublist _).subset h)

/-- A grant by the scan of a barring is one of a waiter, from the state before it. -/
theorem grantedTo_of_beginBar {who : PortId → Bool} {s t : State} {w : Waiter} {id : LeaseId}
    (hf : (s.lease id).state = .free) (h : GrantedTo (s.beginBar who) t w id) : GrantedTo s t w id := by
  obtain ⟨hl, hb⟩ := h
  have same := lease_beginBar_of_free (who := who) hf
  refine ⟨hl.trans (GrantRecord_eq same ?_), by rw [hb, same]⟩
  rw [(beginBar_leaseWork who s).region]

section Barring

variable {s : State} {who : PortId → Bool} (hk : KeysUnique s.le.waiters)
include hk

theorem barRequest_walked : Walked (s.beginBar who).le.waiters (s.beginBar who) (s.barRequest who) :=
  grantScan_walked (hk.sublist (waiters_beginBar_sublist who s))

/-- R163: a waiter of a barred requester has left, and holds its notice. -/
theorem waiter_barred {w : Waiter} (hw : w ∈ s.le.waiters) (hr : who w.requester = true) :
    ((s.barRequest who).port w.requester).board[w.tag] = some (.dropped .portBarred) ∧ Left (s.barRequest who) w := by
  have apart : ∀ {v : Waiter}, who v.requester = false → ¬(v.requester = w.requester ∧ v.tag = w.tag) := fun hv k => by
    rw [k.1, hr] at hv
    cases hv
  refine ⟨?_, fun v hv => apart (mem_waiters_barRequest hv).2⟩
  rcases (barRequest_walked (who := who) hk).board w.requester w.tag with hb | ⟨v, hv, hp, ht, _⟩
  · rw [hb, board_beginBar, if_pos ⟨w, hw, hr, rfl, rfl⟩]
  · exact absurd ⟨hp, ht⟩ (apart (mem_waiters_beginBar.mp hv).2)

theorem barRequest_scanned : Scanned s (s.barRequest who) (fun w => who w.requester = true) := by
  have walked := barRequest_walked (who := who) hk
  refine ⟨(waiters_grantScan_sublist _).trans (waiters_beginBar_sublist who s), fun id hf => ?_, fun w hw left hne => ?_⟩
  · have same := lease_beginBar_of_free (who := who) hf
    rcases walked.grants id (by rw [same]; exact hf) with h | ⟨w, hw, left, hg⟩
    · exact .inl (h.trans same)
    · exact .inr ⟨w, (mem_waiters_beginBar.mp hw).1, left, grantedTo_of_beginBar hf hg⟩
  · obtain ⟨id, hf, hg⟩ := walked.leavers w (mem_waiters_beginBar.mpr ⟨hw, Bool.eq_false_of_not_eq_true hne⟩) left
    exact ⟨id, grantedTo_of_beginBar (free_of_beginBar hf) hg⟩

/-- R163: what a barring leaves in the Lease Table and the Wait List. -/
theorem barRequest_barredAtLe : BarredAtLe s (s.barRequest who) (fun q => who q = true) := by
  refine ⟨fun id hh hw => ?_, fun id hf hn => ?_, fun w hw hr => waiter_barred hk hw hr, barRequest_scanned hk⟩
  · rw [lease_barRequest (by rw [hh]; decide), lease_beginBar, if_pos ⟨hh, hw⟩]
  · rw [lease_barRequest hf, lease_beginBar, if_neg hn]

theorem barRequest_boardKept (p : PortId) : BoardKept s (s.barRequest who) p := by
  intro tag
  rcases (barRequest_walked (who := who) hk).board p tag with hb | ⟨w, hw, hp, ht, left⟩
  · rw [hb, board_beginBar]
    split
    · next h =>
      obtain ⟨w, hw, hr, rfl, rfl⟩ := h
      exact .inr ⟨w, hw, rfl, rfl, (waiter_barred hk hw hr).2⟩
    · exact .inl rfl
  · exact .inr ⟨w, (mem_waiters_beginBar.mp hw).1, hp, ht, left⟩

/-- R163: a port of a requester not barred keeps everything but notices to its waiters. -/
theorem barRequest_portKept {q : PortId} (hq : who q = false) : PortKept s (s.barRequest who) q := by
  refine ⟨?_, barRequest_boardKept hk q⟩
  have tombstones : ((s.barRequest who).port q).tombstones = (s.port q).tombstones := by
    rw [(barRequest_walked (who := who) hk).tombstones, State.beginBar, tombstones_dropWaiters]
    exact tombstones_revokeAll (fun l hl k => by rw [k, hq] at hl; cases hl) s
  have port := (barRequest_leaseWork who s).port q
  rw [tombstones] at port
  exact port

theorem barRequest_flags (e : Event) (he : e ≠ .slotsLow) : (s.barRequest who).flagged e = s.flagged e := by
  rw [(barRequest_walked (who := who) hk).flags e he, State.flagged, mgp_beginBar]
  rfl

end Barring

/-! ## The barring of one requester (R161) -/

/-- Two changes of a port that agree on the port as it is. -/
theorem updPort_congr {s : State} {p : PortId} {f g : Port → Port} (h : f (s.port p) = g (s.port p)) :
    s.updPort p f = s.updPort p g := by
  change f s.ptc.ports[p] = g s.ptc.ports[p] at h
  unfold State.updPort
  rw [h]

/-- The event of a barring, by the state it leads to. -/
def barringEvent (r : Requester) : Event := if r.state = .lockedOut then .portLockedOut else .portQuarantined

theorem Barred_state (limit : Nat) (r : Requester) :
    (Barred limit r).state = .lockedOut ∨ (Barred limit r).state = .quarantined := ite_eq_or_eq _ _ _

/-- The port records as a barring takes them, LE not yet asked. -/
def State.barredPort (p : PortId) (s : State) : State :=
  (s.updPort p fun q => { q with requester := Barred s.ptc.limit (s.port p).requester }).raise
    (barringEvent (Barred s.ptc.limit (s.port p).requester))

/-- R161: the requester record takes the barring, and its event is raised. -/
theorem enterBarring_eq (p : PortId) (s : State) : s.enterBarring p = s.barredPort p := by
  have event : barringEvent (Barred s.ptc.limit (s.port p).requester) =
      if (if (s.port p).requester.quarantines = s.ptc.limit then (s.port p).requester.quarantines
        else (s.port p).requester.quarantines + 1) = s.ptc.limit then .portLockedOut else .portQuarantined := by
    unfold barringEvent Barred
    dsimp only
    split <;> simp_all
  unfold State.barredPort
  rw [event]
  rfl

/-- R43: the counted reasons. -/
theorem counted_iff {f : FaultReason} :
    f.counted = true ↔ f = .align ∨ f = .noRegion ∨ f = .rights ∨ f = .noLease := by
  cases f <;> decide

section CountFault

variable {s : State} {p : PortId}

/-- R160: a counted fault below the threshold. -/
theorem countFault_of_lt (h : (s.port p).requester.faults + 1 < s.ptc.threshold) :
    s.countFault p =
      s.updPort p fun q => { q with requester := { q.requester with faults := (s.port p).requester.faults + 1 } } := by
  unfold State.countFault
  dsimp only
  rw [if_neg (by simpa using h)]
  exact updPort_congr rfl

/-- R160, R161: a counted fault that reaches the threshold bars the requester. -/
theorem countFault_of_le (h : s.ptc.threshold ≤ (s.port p).requester.faults + 1) :
    s.countFault p = (s.barredPort p).barRequest fun x => x == p := by
  unfold State.countFault
  dsimp only
  rw [if_pos (by simpa using h), enterBarring_eq]
  unfold State.barredPort State.updRequester
  rw [updPort_updPort, port_updPort_self]
  rfl

theorem port_barredPort (q : PortId) :
    (s.barredPort p).port q =
      if p = q then { s.port q with requester := Barred s.ptc.limit (s.port p).requester } else s.port q :=
  port_updPort s p (fun q => { q with requester := Barred s.ptc.limit (s.port p).requester }) q

theorem flagged_barredPort (e : Event) :
    (s.barredPort p).flagged e =
      (s.flagged e || decide (e = barringEvent (Barred s.ptc.limit (s.port p).requester))) := by
  have mask : ∀ f : Event, f.mask.getLsbD e.bit = decide (e = f) := by
    intro f
    cases e <;> cases f <;> rfl
  unfold State.barredPort
  rw [flagged_raise, mask]
  rfl

end CountFault

theorem refuse_of_counted {f : FaultReason} (h : f.counted = true) (p : PortId) (a : Presentation) (s : State) :
    s.refuse p a f = (BusError p f a.addr a.dir (enabledCount a.be) s).countFault p := if_pos h

theorem refuse_of_uncounted {f : FaultReason} (h : f.counted = false) (p : PortId) (a : Presentation) (s : State) :
    s.refuse p a f = BusError p f a.addr a.dir (enabledCount a.be) s := if_neg (by rw [h]; decide)

/-- R26, R42: a ready port refuses an access that is judged so. -/
theorem arrival_of_refuse {s : State} {p : PortId} {a : Presentation} {f : FaultReason} (h : Ready s p)
    (hj : s.judge p a = .refuse f) : exec (.accessArrival p a) s = .next (s.refuse p a f) := by
  rw [arrival_of_ready h]
  unfold State.carryOut
  rw [hj]

theorem port_busError (p : PortId) (f : FaultReason) (addr : Word) (dir : Direction) (width : Nat) (s : State)
    (q : PortId) :
    (BusError p f addr dir width s).port q =
      if p = q then
        { s.port q with
          answer := some .busError, lastFault := { reason := some f, addr := addr, dir := dir, width := width } }
      else s.port q := port_updPort s p _ q

/-- What holds of a board since a state with the same waiters and the same board. -/
theorem boardKept_of_start {s v t : State} {q : PortId} (hw : v.le.waiters = s.le.waiters)
    (hb : (v.port q).board = (s.port q).board) (h : BoardKept v t q) : BoardKept s t q := by
  intro tag
  rw [← hb, ← hw]
  exact h tag

/-- R161, R163: the barring `t` that a refusal `u` brings, from the state before the refusal. -/
theorem barred_of_refusal {s u t : State} {p : PortId} {f : FaultReason} {addr : Word} {dir : Direction} {width : Nat}
    (hu : u = BusError p f addr dir width s) (ht : t = (u.barredPort p).barRequest fun x => x == p)
    (hk : KeysUnique s.le.waiters) :
    let barred := Barred s.ptc.limit (s.port p).requester
    t.port p = { u.port p with requester := barred, board := (t.port p).board, tombstones := (t.port p).tombstones } ∧
    t.flagged .portLockedOut = (s.flagged .portLockedOut || decide (barred.state = .lockedOut)) ∧
    t.flagged .portQuarantined = (s.flagged .portQuarantined || decide (barred.state = .quarantined)) ∧
    BarredAtLe s t (fun q => q = p) ∧ BoardKept s t p ∧ ScanDone t ∧ (∀ q : PortId, q ≠ p → PortKept s t q) ∧
    Quiet s t [.slotsLow, .portLockedOut, .portQuarantined] := by
  dsimp only
  have record : (u.port p).requester = (s.port p).requester := by rw [hu, port_busError, if_pos rfl]
  have limit : u.ptc.limit = s.ptc.limit := by rw [hu]; rfl
  generalize hb : Barred s.ptc.limit (s.port p).requester = barred
  have own : (u.barredPort p).port p = { u.port p with requester := barred } := by
    rw [port_barredPort, if_pos rfl, record, limit, hb]
  have other : ∀ q : PortId, q ≠ p → (u.barredPort p).port q = s.port q := fun q hq => by
    rw [port_barredPort, if_neg hq.symm, hu, port_busError, if_neg hq.symm]
  have board : ∀ q : PortId, ((u.barredPort p).port q).board = (s.port q).board := fun q => by
    by_cases e : q = p
    · rw [e, own, hu, port_busError, if_pos rfl]
    · rw [other q e]
  have flagged : ∀ e : Event, (u.barredPort p).flagged e = (s.flagged e || decide (e = barringEvent barred)) := fun e => by
    rw [flagged_barredPort, record, limit, hb, hu]
    rfl
  have start : u.barredPort p = { s with
      ptc := { s.ptc with ports := (u.barredPort p).ptc.ports }
      mgp := { s.mgp with flags := (u.barredPort p).mgp.flags } } := by
    subst hu
    rfl
  generalize u.barredPort p = v at *
  have waiters : v.le.waiters = s.le.waiters := by rw [start]
  have keys : KeysUnique v.le.waiters := waiters ▸ hk
  have work : LeaseWork v t := ht ▸ barRequest_leaseWork _ v
  have flags : ∀ e : Event, e ≠ .slotsLow → t.flagged e = (s.flagged e || decide (e = barringEvent barred)) :=
    fun e he => by rw [ht, barRequest_flags keys e he, flagged]
  have kept : ∀ q : PortId, BoardKept s t q := fun q =>
    boardKept_of_start waiters (board q) (ht ▸ barRequest_boardKept keys q)
  have states := Barred_state s.ptc.limit (s.port p).requester
  rw [hb] at states
  refine ⟨?port, ?locked, ?quarantined, ?atLe, kept p, ht ▸ barRequest_done _ _, ?others, ?quiet⟩
  case port => rw [work.port p, own]
  case locked =>
    rw [flags _ (by decide), barringEvent]
    rcases states with h | h <;> simp [h]
  case quarantined =>
    rw [flags _ (by decide), barringEvent]
    rcases states with h | h <;> simp [h]
  case atLe =>
    have atLe := barRequest_barredAtLe (who := fun x => x == p) keys
    simp only [beq_iff_eq, ← ht] at atLe
    rw [start] at atLe
    exact atLe
  case others =>
    intro q hq
    have port := (barRequest_portKept (who := fun x => x == p) keys (q := q) (by simpa using hq)).1
    rw [← ht, other q hq] at port
    exact ⟨port, kept q⟩
  case quiet =>
    refine ⟨?_, fun e he => ?_⟩
    · have same := work.eq
      rw [start] at same
      exact same
    · simp only [List.mem_cons, List.not_mem_nil, or_false, not_or] at he
      obtain ⟨hs, hl, hq⟩ := he
      have apart : e ≠ barringEvent barred := by
        unfold barringEvent
        split
        · exact hl
        · exact hq
      rw [flags e hs, decide_eq_false apart, Bool.or_false]

/-- Settles O10: a refusal by whether its reason counts, and a counted one by whether it reaches the threshold. -/
theorem refusalIsAnswered : Obligations.RefusalIsAnswered := by
  intro s p a f hready hj
  dsimp only
  rw [← counted_iff, arrival_of_refuse hready hj]
  have faults : ((BusError p f a.addr a.dir (enabledCount a.be) s).port p).requester.faults =
      (s.port p).requester.faults := by rw [port_busError, if_pos rfl]
  refine ⟨fun hc => ?_, fun hc hn => ?_, fun hc hn hunique => ⟨_, rfl, ?_⟩⟩
  · rw [refuse_of_uncounted (Bool.eq_false_of_not_eq_true hc)]
  · rw [refuse_of_counted hc, countFault_of_lt (by rw [faults]; exact hn), faults]
  · rw [refuse_of_counted hc, countFault_of_le (by rw [faults]; exact hn)]
    exact barred_of_refusal rfl rfl hunique.1

end Sys2Proof.Machine
end

section
/-! WITHDRAW (R88): a lease command of a ready requester is taken by LE in the event of its SUBMIT write; WITHDRAW removes the
waiter it names, and the shorter list calls for the scan. -/

namespace Sys2Proof.Machine

open Sys2Proof.Safety Sys2Proof.Claims

/-- R186: SUBMIT stands at the fifth word offset of the window. -/
theorem windowSlot_submit {s : State} (h : WindowAligned s) {be : BitVec 4} (hb : alignedEnables be = true) :
    s.mu.windowSlot (s.mu.windowBase + BitVec.ofNat 32 (0x10 + lowestLane be)) = .submit := by
  unfold MapUnit.windowSlot
  rw [windowSlot_offset h hb (by decide) (by decide)]
  rfl

/-- R145: a lease command row whose code stands in REQUEST0 is the SUBMIT write, taken at once. -/
theorem submitRow_of_submits {s : State} {p : PortId} {be : BitVec 4} {code : Nat} (h : Submits s p be code)
    (data : Word) : s.submitRow code p be data = s.submit p := by
  obtain ⟨⟨⟨hi, hr, hs⟩, hq, hu, hw⟩, hb, _, hc⟩ := h
  rw [submitRow_of_none_taken code be data (.inl hs), if_pos hc,
    present_window hi hr hs hq hu hw hb (by decide) (by decide) .write data]
  unfold State.windowAccess State.windowPresentation
  dsimp only
  rw [windowSlot_submit hw hb]

/-- R145: the reply to a command other than an EARLY_REVOKED RENEW is placed, the write answered, and nothing more. -/
theorem submit_of_reply {s t : State} {p : PortId} {r : Reply} (h : s.leCommand p = (t, r)) (hr : r.code ≠ .earlyRevoked) :
    s.submit p = Answered p r t := by
  unfold State.submit
  rw [h]
  dsimp only
  rw [if_neg hr]
  exact updPort_updPort t p _ _

theorem leCommand_withdraw {s : State} {p : PortId} (hl : s.mu.map = .live) (hc : reqCode (s.port p).request[0] = 6) :
    s.leCommand p = s.leWithdraw p (s.port p).request[0] := by
  unfold State.leCommand
  dsimp only
  rw [if_neg (by rw [hl]; decide), hc]
  rfl

/-- R88, R94: a removal that removes a waiter is followed by a grant scan. -/
theorem settle_removeWaiters {out : Waiter → Bool} {s : State} (h : ∃ w ∈ s.le.waiters, out w = true) :
    s.settle (s.removeWaiters out) = (s.removeWaiters out).grantScan := by
  obtain ⟨w, hw, ho⟩ := h
  have fewer : (s.le.waiters.filter fun w => !out w).length < s.le.waiters.length :=
    List.length_filter_lt_length_iff_exists.mpr ⟨w, hw, by simp [ho]⟩
  refine if_pos ?_
  unfold scanDue
  rw [Bool.or_eq_true]
  exact .inl (bne_iff_ne.mpr fewer.ne')

/-- Settles O23: the write reaches LE, which finds a waiter of the tag or finds none. -/
theorem withdrawRemovesTheWaiter : Obligations.WithdrawRemovesTheWaiter := by
  intro s p be data h
  have ⟨_, _, hl, hc⟩ := h
  have row : exec (.withdraw p be data) s = .next (s.submit p) := congrArg Host.Outcome.next (submitRow_of_submits h data)
  have command := leCommand_withdraw hl hc
  dsimp only
  rw [row]
  refine ⟨fun hnone => ?_, fun hsome => ?_⟩
  · have absent : s.le.waiters.any (fun w => w.requester == p && w.tag == reqTag (s.port p).request[0]) = false := by
      simpa using hnone
    have answered : s.leCommand p = (s, Reply.plain .noSuchClaim) :=
      command.trans (if_neg (by rw [absent]; decide))
    rw [submit_of_reply answered (by decide)]
    rfl
  · have present : ∃ w ∈ s.le.waiters, (w.requester == p && w.tag == reqTag (s.port p).request[0]) = true := by
      simpa using hsome
    have answered : s.leCommand p = (_, Reply.plain .ok) := command.trans (if_pos (List.any_eq_true.mpr present))
    rw [submit_of_reply answered (by decide), settle_removeWaiters present]
    rfl

end Sys2Proof.Machine
end

section
/-! SUPPORT. What an event keeps of the waiters (R82, R84, R87). Most events only shed waiters: those that stay keep their order,
no notice comes under their tags, and what they need stays. An event that takes from some waiters what they need (a barring, a
requester's reset, a retirement) also makes those waiters leave. -/

namespace Sys2Proof.Machine

open Sys2Proof.Safety Sys2Proof.Claims

/-! ## Waiters that stay -/

/-- Waiters only leave, in order; those that stay get no notice under their tags, and what a waiter needs (R84) stays, unless
`out` names it. -/
structure ShedBut (out : Waiter → Prop) (s t : State) : Prop where
  waiters : t.le.waiters.Sublist s.le.waiters
  board : KeysUnique s.le.waiters → ∀ w ∈ t.le.waiters,
    (s.port w.requester).board[w.tag] = none → (t.port w.requester).board[w.tag] = none
  holds : ∀ w ∈ t.le.waiters, ¬out w → MayHold s w.requester w.region → MayHold t w.requester w.region

/-- Waiters only leave, and those that stay keep what they need. -/
abbrev Shed : State → State → Prop := ShedBut fun _ => False

namespace ShedBut

variable {out : Waiter → Prop} {s t u : State}

theorem trans (h : ShedBut out s t) (k : ShedBut out t u) : ShedBut out s u where
  waiters := k.waiters.trans h.waiters
  board hk w hw hn := k.board (hk.sublist h.waiters) w hw (h.board hk w (k.waiters.subset hw) hn)
  holds w hw ho hm := k.holds w hw ho (h.holds w (k.waiters.subset hw) ho hm)

/-- A change of none of the records that waiters stand in. -/
theorem aside (hw : t.le.waiters = s.le.waiters) (hp : t.ptc.ports = s.ptc.ports) (hr : t.mu.regions = s.mu.regions) :
    ShedBut out s t := by
  have port : ∀ p, t.port p = s.port p := fun p => by unfold State.port; rw [hp]
  have region : ∀ r, t.region r = s.region r := fun r => by unfold State.region; rw [hr]
  refine ⟨by rw [hw], fun _ w _ hn => ?_, fun w _ _ hm => ?_⟩
  · rw [port]
    exact hn
  · rw [MayHold, port, region]
    exact hm

theorem refl (s : State) : ShedBut out s s := aside rfl rfl rfl

theorem foldl {α : Type} {f : State → α → State} (h : ∀ s a, ShedBut out s (f s a)) (l : List α) (s : State) :
    ShedBut out s (l.foldl f s) := by
  induction l generalizing s with
  | nil => exact refl s
  | cons a l ih => exact (h s a).trans (ih (f s a))

theorem mono {out' : Waiter → Prop} (h : ShedBut out s t) (k : ∀ w, out w → out' w) : ShedBut out' s t :=
  ⟨h.waiters, h.board, fun w hw ho => h.holds w hw fun hn => ho (k w hn)⟩

/-- An emptied Wait List. -/
theorem of_empty (h : t.le.waiters = []) : ShedBut out s t where
  waiters := h ▸ List.nil_sublist _
  board _ w hw := by
    rw [h] at hw
    cases hw
  holds w hw := by
    rw [h] at hw
    cases hw

/-- An event that takes from waiters what they need, and leaves none of those waiters in the list. -/
theorem leave (h : ShedBut out s t) (k : Shed t u) (gone : ∀ w ∈ u.le.waiters, ¬out w) : Shed s u where
  waiters := k.waiters.trans h.waiters
  board hk w hw hn := k.board (hk.sublist h.waiters) w hw (h.board hk w (k.waiters.subset hw) hn)
  holds w hw _ hm := k.holds w hw not_false (h.holds w (k.waiters.subset hw) (gone w hw) hm)

end ShedBut

/-! ## Ports and regions -/

/-- What waits at port `q` may go on waiting at `q'`. -/
structure StaysOpen (q q' : Port) : Prop where
  online : q.requester.state = .online → q'.requester.state = .online
  inReset : q.requester.inReset = false → q'.requester.inReset = false
  board : ∀ tag : Tag, q.board[tag] = none → q'.board[tag] = none

/-- A change of a port that leaves the requester's state and its board. -/
theorem StaysOpen.of_same {q q' : Port} (h : q'.requester.state = q.requester.state)
    (k : q'.requester.inReset = q.requester.inReset) (hb : q'.board = q.board) : StaysOpen q q' :=
  ⟨fun x => h.trans x, fun x => k.trans x, fun _ x => by rw [hb]; exact x⟩

theorem updPort_shed (p : PortId) {f : Port → Port} {s : State} (h : StaysOpen (s.port p) (f (s.port p))) :
    Shed s (s.updPort p f) where
  waiters := .refl _
  board _ w _ hn := by
    rw [port_updPort]
    split
    · next e =>
      subst e
      exact h.board _ hn
    · exact hn
  holds w _ _ hm := by
    obtain ⟨honline, hreset, hregion⟩ := hm
    rw [MayHold, port_updPort]
    split
    · next e =>
      subst e
      exact ⟨h.online honline, h.inReset hreset, hregion⟩
    · exact ⟨honline, hreset, hregion⟩

/-- A change of a port that places no notice keeps what the waiters of other requesters need. -/
theorem updPort_shedBut (p : PortId) {f : Port → Port} (s : State) (h : ∀ (q : Port) (tag : Tag), (f q).board[tag] = q.board[tag]) :
    ShedBut (fun w => w.requester = p) s (s.updPort p f) where
  waiters := .refl _
  board _ w _ hn := by
    rw [port_updPort]
    split
    · exact (h _ _).trans hn
    · exact hn
  holds w _ ho hm := by
    rw [MayHold, port_updPort_ne s f (Ne.symm ho)]
    exact hm

theorem updRequester_shedBut (p : PortId) (f : Requester → Requester) (s : State) :
    ShedBut (fun w => w.requester = p) s (s.updRequester p f) :=
  updPort_shedBut p s fun _ _ => rfl

theorem answer_shed (p : PortId) (x : Answer) (s : State) : Shed s (s.answer p x) :=
  updPort_shed p (.of_same rfl rfl rfl)

/-- R154, R166: a change of a requester record that takes nothing from a requester that is ONLINE. -/
theorem updRequester_shed (p : PortId) {f : Requester → Requester} {s : State}
    (h : ∀ q : Requester, q.state = .online → (f q).state = .online) (k : ∀ q : Requester, (f q).inReset = q.inReset) :
    Shed s (s.updRequester p f) :=
  updPort_shed p ⟨h _, fun x => (k _).trans x, fun _ x => x⟩

theorem clearPort_shed (p : PortId) (s : State) : Shed s (s.clearPort p) :=
  updPort_shed p ⟨id, id, fun tag _ => Vector.getElem_replicate tag.isLt⟩

theorem updRegion_shed (r : RegionId) {f : Region → Region} {s : State}
    (h : (s.region r).state = .active ∨ (s.region r).state = .suspended →
      (f (s.region r)).state = .active ∨ (f (s.region r)).state = .suspended) : Shed s (s.updRegion r f) where
  waiters := .refl _
  board _ _ _ hn := hn
  holds w _ _ hm := by
    obtain ⟨honline, hreset, hregion⟩ := hm
    refine ⟨honline, hreset, ?_⟩
    rw [region_updRegion]
    split
    · next e =>
      subst e
      exact h hregion
    · exact hregion

theorem raise_shedBut {out : Waiter → Prop} (e : Event) (s : State) : ShedBut out s (s.raise e) := .aside rfl rfl rfl

theorem finish_shed (code : BitVec 4) (result : HostResult) (s : State) : Shed s (s.finish code result) :=
  .aside rfl rfl rfl

theorem updTarget_shed (x : TargetId) (f : Target → Target) (s : State) : Shed s (s.updTarget x f) :=
  .aside rfl rfl rfl

theorem setHold_shed (h : Option BusHold) (s : State) : Shed s (s.setHold h) := .aside rfl rfl rfl

/-! ## The Lease Engine -/

/-- An operation of the Lease Engine, by what it does to the Wait List and to the boards. -/
theorem LeaseWork.shed {s t : State} (h : LeaseWork s t) (hw : t.le.waiters.Sublist s.le.waiters)
    (hb : KeysUnique s.le.waiters → ∀ w ∈ t.le.waiters,
      (t.port w.requester).board[w.tag] = (s.port w.requester).board[w.tag]) : Shed s t where
  waiters := hw
  board hk w hm hn := (hb hk w hm).trans hn
  holds w _ _ hm := by
    rw [MayHold, h.requester, h.region]
    exact hm

theorem putLease_shed (id : LeaseId) (l : Lease) (s : State) : Shed s (s.putLease id l) :=
  (putLease_leaseWork id l s).shed (by rw [waiters_putLease]) fun _ _ _ => by rw [board_putLease]

theorem freeLease_shed (id : LeaseId) (s : State) : Shed s (s.freeLease id) := putLease_shed id _ s

theorem weighSlotsLow_shed (before : Nat) (s : State) : Shed s (s.weighSlotsLow before) := by
  unfold State.weighSlotsLow
  split
  · exact raise_shedBut _ s
  · exact .refl s

theorem grantLease_shed (id : LeaseId) (holder : PortId) (region : RegionId) (range : AddrRange) (mode : Mode)
    (priority : Priority) (requested : Nat) (s : State) :
    Shed s (s.grantLease id holder region range mode priority requested) :=
  (putLease_shed id _ s).trans (weighSlotsLow_shed _ _)

theorem revoke_shed (x : RevokeReason) (id : LeaseId) (s : State) : Shed s (s.revoke x id) := by
  rcases revoke_eq x id s with h | ⟨l, h⟩
  · rw [h]
    exact .refl s
  · rw [h]
    exact putLease_shed id l s

theorem revokeAll_shed (x : RevokeReason) (which : Lease → Bool) (s : State) : Shed s (s.revokeAll x which) := by
  refine ShedBut.foldl (fun s id => ?_) _ s
  split
  · exact revoke_shed x id s
  · exact .refl s

theorem clearSlot_shed (p : PortId) (id : LeaseId) (s : State) : Shed s (s.clearSlot p id) := by
  unfold State.clearSlot
  dsimp only
  split
  · exact .refl s
  split
  · exact .refl s
  · exact revoke_shed _ id s
  · exact putLease_shed id _ s
  · exact freeLease_shed id s

theorem freeTombstones_shed (p : PortId) (s : State) : Shed s (s.freeTombstones p) := by
  refine ShedBut.foldl (fun s id => ?_) _ s
  split
  · exact freeLease_shed id s
  · exact .refl s

theorem removeWaiters_shed (out : Waiter → Bool) (s : State) : Shed s (s.removeWaiters out) :=
  (removeWaiters_leaseWork out s).shed List.filter_sublist fun _ _ _ => rfl

/-- R89: a waiter that stays has another tag than those dropped. -/
theorem dropWaiters_shed (out : Waiter → Bool) (reason : DropReason) (s : State) : Shed s (s.dropWaiters out reason) := by
  refine (dropWaiters_leaseWork out reason s).shed ?_ fun hk w hw => ?_
  · rw [waiters_dropWaiters]
    exact List.filter_sublist
  · rw [waiters_dropWaiters, List.mem_filter] at hw
    obtain ⟨hw, stays⟩ := hw
    rw [board_dropWaiters, if_neg]
    rintro ⟨v, hv, dropped, key⟩
    rw [← hk.eq hv hw key, dropped] at stays
    cases stays

/-- R97: a waiter that stays has another tag than those granted. -/
theorem grantScan_shed (s : State) : Shed s s.grantScan := by
  refine (grantScan_leaseWork s).shed (waiters_grantScan_sublist s) fun hk w hw => ?_
  rcases (grantScan_walked hk).board w.requester w.tag with same | ⟨v, _, hr, ht, left⟩
  · exact same
  · exact absurd ⟨hr.symm, ht.symm⟩ (left w hw)

theorem settle_shed (before : State) {s t : State} (h : Shed s t) : Shed s (before.settle t) := by
  unfold State.settle
  split
  · exact h.trans (grantScan_shed t)
  · exact h

/-! ## Barring, clearing and retirement -/

theorem barRequest_shed (who : PortId → Bool) (s : State) : Shed s (s.barRequest who) :=
  ((revokeAll_shed _ _ s).trans (dropWaiters_shed _ _ _)).trans (grantScan_shed _)

/-- R91, R163: a barring that begins with a change of requesters that `who` names sheds their waiters. -/
theorem barRequest_shed_of_shedBut {who : PortId → Bool} {s t : State}
    (h : ShedBut (fun w => who w.requester = true) s t) : Shed s (t.barRequest who) :=
  h.leave (barRequest_shed who t) fun w hw => by
    rw [(mem_waiters_barRequest hw).2]
    decide

theorem enterBarring_shedBut (p : PortId) (s : State) : ShedBut (fun w => w.requester = p) s (s.enterBarring p) :=
  (updRequester_shedBut p _ s).trans (raise_shedBut _ _)

theorem countFault_shed (p : PortId) (s : State) : Shed s (s.countFault p) := by
  have counted : Shed s (s.updRequester p fun r => { r with faults := r.faults + 1 }) :=
    updRequester_shed p (fun _ h => h) fun _ => rfl
  unfold State.countFault
  dsimp only
  split
  · refine counted.trans (barRequest_shed_of_shedBut ?_)
    simp only [beq_iff_eq]
    exact enterBarring_shedBut p _
  · exact counted

theorem clearRequest_shed (p : PortId) (s : State) : Shed s (s.clearRequest p) :=
  settle_shed s ((ShedBut.foldl (fun s id => clearSlot_shed p id s) _ s).trans (removeWaiters_shed _ _))

theorem requester_ne_of_mem_clearRequest {p : PortId} {s : State} {w : Waiter}
    (h : w ∈ (s.clearRequest p).le.waiters) : w.requester ≠ p := by
  have removed : ∀ u : State, w ∈ (s.settle (u.removeWaiters fun w => w.requester == p)).le.waiters → w.requester ≠ p :=
    fun u hw => by
      have stays : w ∈ u.le.waiters.filter fun w => !(w.requester == p) := (waiters_settle_sublist _ _).subset hw
      simpa using (List.mem_filter.mp stays).2
  exact removed _ h

/-- R75, R92: a clearing that begins with a change of requester `p` sheds its waiters. -/
theorem clearRequest_shed_of_shedBut {p : PortId} {s t : State} (h : ShedBut (fun w => w.requester = p) s t) :
    Shed s (t.clearRequest p) :=
  h.leave (clearRequest_shed p t) fun _ => requester_ne_of_mem_clearRequest

theorem retiringState_shed (r : RegionId) (s : State) : Shed s (s.retiringState r) := by
  have begun : ShedBut (fun w => w.region = r) s (s.setRetiring r) :=
    ⟨.refl _, fun _ _ _ hn => hn, fun w _ ho hm => by
      rw [MayHold, setRetiring_region, if_neg (Ne.symm ho)]
      exact hm⟩
  exact begun.leave (settle_shed _ ((revokeAll_shed _ _ _).trans (dropWaiters_shed _ _ _))) fun w hw =>
    (mem_waiters_retiringState hw).2

end Sys2Proof.Machine
end

section
/-! What every event keeps of the Wait List (R82, R84, R87): all but a claim that begins to wait and the count of the wait
budgets only shed waiters. -/

namespace Sys2Proof.Machine

open Sys2Proof.Safety Sys2Proof.Claims

/-! ## The laws of the Wait List -/

/-- R84: every waiter's requester is ONLINE and not in reset, and its region ACTIVE or SUSPENDED. -/
abbrev WaitersHold (s : State) : Prop := ∀ w ∈ s.le.waiters, MayHold s w.requester w.region

/-- Each law of the Wait List that holds of `s` holds of `t`. -/
structure WaitKept (s t : State) : Prop where
  ordered : WaitListOrdered s → WaitListOrdered t
  tags : TagsUnique s → TagsUnique t
  hold : WaitersHold s → WaitersHold t

theorem WaitKept.trans {s t u : State} (h : WaitKept s t) (k : WaitKept t u) : WaitKept s u :=
  ⟨k.ordered ∘ h.ordered, k.tags ∘ h.tags, k.hold ∘ h.hold⟩

theorem ShedBut.waitKept {s t : State} (h : Shed s t) : WaitKept s t where
  ordered ho := ho.sublist h.waiters
  tags := fun ⟨hk, hb⟩ =>
    ⟨hk.sublist h.waiters, fun w hw => h.board hk w hw (hb w (h.waiters.subset hw))⟩
  hold hh w hw := h.holds w hw not_false (hh w (h.waiters.subset hw))

/-- A change of none of the records that waiters stand in. -/
theorem WaitKept.aside {s t : State} (hw : t.le.waiters = s.le.waiters) (hp : t.ptc.ports = s.ptc.ports)
    (hr : t.mu.regions = s.mu.regions) : WaitKept s t := ShedBut.waitKept (.aside hw hp hr)

theorem WaitKept.refl (s : State) : WaitKept s s := .aside rfl rfl rfl

theorem WaitKept.settle (before : State) {s t : State} (h : WaitKept s t) : WaitKept s (before.settle t) :=
  h.trans (settle_shed before (.refl t)).waitKept

/-- R84: there are as many tags as waiters may be. -/
theorem length_le_of_keysUnique {ws : List Waiter} (h : KeysUnique ws) : ws.length ≤ 16 := by
  have distinct : (ws.map fun w => (w.requester, w.tag)).Nodup := by
    refine List.pairwise_map.mpr (h.imp fun hne k => hne ?_)
    exact Prod.mk.inj k
  have bound := distinct.length_le_card
  rw [List.length_map] at bound
  exact bound

/-! ## A claim begins to wait (R82, R85) -/

theorem insertWaiter_perm (w : Waiter) (ws : List Waiter) : (insertWaiter w ws).Perm (w :: ws) := by
  induction ws with
  | nil => exact .refl _
  | cons v ws ih =>
    unfold insertWaiter
    split
    · exact (ih.cons v).trans (List.Perm.swap w v ws)
    · exact .refl _

/-- R82: the new waiter stands behind those of its priority or a higher one, ahead of the others. -/
theorem insertWaiter_ordered {w : Waiter} {ws : List Waiter}
    (h : ws.Pairwise fun ahead behind => behind.priority ≤ ahead.priority) :
    (insertWaiter w ws).Pairwise fun ahead behind => behind.priority ≤ ahead.priority := by
  induction ws with
  | nil => exact List.pairwise_singleton _ w
  | cons v ws ih =>
    obtain ⟨hv, hws⟩ := List.pairwise_cons.mp h
    unfold insertWaiter
    split
    · next hle =>
      refine List.pairwise_cons.mpr ⟨fun x hx => ?_, ih hws⟩
      rcases mem_insertWaiter.mp hx with rfl | hx
      · exact hle
      · exact hv x hx
    · next hlt =>
      have below : v.priority ≤ w.priority := le_of_not_ge hlt
      refine List.pairwise_cons.mpr ⟨fun x hx => ?_, h⟩
      rcases List.mem_cons.mp hx with rfl | hx
      · exact below
      · exact (hv x hx).trans below

/-- R84: a waiter with a tag of its own may join. -/
theorem insertWaiter_keysUnique {w : Waiter} {ws : List Waiter} (h : KeysUnique ws)
    (hw : ∀ v ∈ ws, ¬(v.requester = w.requester ∧ v.tag = w.tag)) : KeysUnique (insertWaiter w ws) := by
  have joined : KeysUnique (w :: ws) :=
    List.pairwise_cons.mpr ⟨fun v hv ⟨hr, ht⟩ => hw v hv ⟨hr.symm, ht.symm⟩, h⟩
  exact (insertWaiter_perm w ws).symm.pairwise joined fun hne ⟨hr, ht⟩ => hne ⟨hr.symm, ht.symm⟩

/-- R61, R87: a tag that is not busy is neither waiting nor notified. -/
theorem tagBusy_eq_false {s : State} {p : PortId} {tag : Tag} :
    s.tagBusy p tag = false ↔
      (∀ w ∈ s.le.waiters, ¬(w.requester = p ∧ w.tag = tag)) ∧ (s.port p).board[tag] = none := by
  simp [State.tagBusy]

theorem enterWaiter_waitKept {w : Waiter} {s : State} (h : MayHold s w.requester w.region)
    (hb : s.tagBusy w.requester w.tag = false) : WaitKept s (s.enterWaiter w) := by
  obtain ⟨free, silent⟩ := tagBusy_eq_false.mp hb
  refine ⟨insertWaiter_ordered, fun ⟨hk, hn⟩ => ⟨insertWaiter_keysUnique hk free, fun v hv => ?_⟩, fun hh v hv => ?_⟩
  · rcases mem_insertWaiter.mp hv with rfl | hv
    · exact silent
    · exact hn v hv
  · rcases mem_insertWaiter.mp hv with rfl | hv
    · exact h
    · exact hh v hv

/-! ## Lease commands -/

/-- R84: what a requester must be for its claim to wait. -/
abbrev MayWait (s : State) (p : PortId) : Prop :=
  (s.port p).requester.state = .online ∧ (s.port p).requester.inReset = false

theorem weighClaim_waitKept {w : Waiter} {s : State} (h : MayHold s w.requester w.region)
    (hb : s.tagBusy w.requester w.tag = false) : WaitKept s (s.weighClaim w).1 := by
  unfold State.weighClaim
  dsimp only
  split
  · exact (grantLease_shed _ _ _ _ _ _ _ s).waitKept
  split
  · exact .refl s
  · exact (enterWaiter_waitKept h hb).settle s

theorem leClaim_waitKept {p : PortId} {s : State} (h : MayWait s p) (w0 w1 w2 : Word) :
    WaitKept s (s.leClaim p w0 w1 w2).1 := by
  obtain ⟨online, noReset⟩ := h
  unfold State.leClaim
  split
  · split
    · exact .refl s
    · next checked =>
      obtain ⟨_, active, _, _, idle, _⟩ := checkClaim_ok checked
      exact weighClaim_waitKept ⟨online, noReset, .inl active⟩ idle
  · exact .refl s

theorem leRenew_shed (p : PortId) (w0 : Word) (s : State) : Shed s (s.leRenew p w0).1 := by
  unfold State.leRenew
  dsimp only
  split
  · exact .refl s
  split
  · split
    · exact settle_shed s ((putLease_shed _ _ s).trans (revoke_shed _ _ _))
    · exact putLease_shed _ _ s
  split
  · exact .refl s
  · dsimp only
    exact (putLease_shed _ _ s).trans (updRequester_shed p (fun _ h => h) fun _ => rfl)

theorem leRelease_shed (p : PortId) (w0 : Word) (s : State) : Shed s (s.leRelease p w0).1 := by
  have free : Shed s (s.settle (s.freeLease (reqLease w0))) := settle_shed s (freeLease_shed _ s)
  unfold State.leRelease
  dsimp only
  split
  · exact .refl s
  split
  · exact .refl s
  split
  · exact free
  · exact free
  · exact .refl s
  · exact .refl s

theorem leUpgrade_shed (p : PortId) (w0 : Word) (s : State) : Shed s (s.leUpgrade p w0).1 := by
  unfold State.leUpgrade
  dsimp only
  split
  · exact .refl s
  split
  · exact .refl s
  split
  · exact .refl s
  split
  · exact .refl s
  split
  · exact .refl s
  split
  · exact .refl s
  · exact putLease_shed _ _ s

theorem leDowngrade_shed (p : PortId) (w0 : Word) (s : State) : Shed s (s.leDowngrade p w0).1 := by
  unfold State.leDowngrade
  dsimp only
  split
  · exact .refl s
  split
  · exact settle_shed s (putLease_shed _ _ s)
  · exact .refl s

theorem leWithdraw_shed (p : PortId) (w0 : Word) (s : State) : Shed s (s.leWithdraw p w0).1 := by
  unfold State.leWithdraw
  dsimp only
  split
  · exact settle_shed s (removeWaiters_shed _ s)
  · exact .refl s

theorem leCommand_waitKept {p : PortId} {s : State} (h : MayWait s p) : WaitKept s (s.leCommand p).1 := by
  unfold State.leCommand
  dsimp only
  split
  · exact .refl s
  split
  · exact leClaim_waitKept h _ _ _
  · exact (leRenew_shed p _ s).waitKept
  · exact (leRelease_shed p _ s).waitKept
  · exact (leUpgrade_shed p _ s).waitKept
  · exact (leDowngrade_shed p _ s).waitKept
  · exact (leWithdraw_shed p _ s).waitKept
  · exact .refl s
  · exact .refl s
  · exact .refl s

theorem placeReply_shed (p : PortId) (r : Reply) (s : State) : Shed s (s.placeReply p r) :=
  updPort_shed p (.of_same rfl rfl rfl)

theorem submit_waitKept {p : PortId} {s : State} (h : MayWait s p) : WaitKept s (s.submit p) := by
  have answered : WaitKept s (((s.leCommand p).1.placeReply p (s.leCommand p).2).answer p .writeDone) :=
    (leCommand_waitKept h).trans ((placeReply_shed p _ _).trans (answer_shed p _ _)).waitKept
  unfold State.submit
  dsimp only
  split
  · exact answered.trans (countFault_shed p _).waitKept
  · exact answered

/-! ## Accesses -/

/-- R150: a NOTICE read takes a notice from the board. -/
theorem takeNotice_staysOpen (q : Port) : StaysOpen q q.takeNotice := by
  unfold Port.takeNotice
  split
  · next t _ =>
    refine ⟨id, id, fun tag hn => ?_⟩
    dsimp only
    rw [vector_get_set, hn, ite_self]
  · exact .of_same rfl rfl rfl

theorem windowRead_shed (p : PortId) (w : WindowSlot) (s : State) : Shed s (s.windowRead p w) := by
  unfold State.windowRead
  split
  · exact updPort_shed p (.of_same rfl rfl rfl)
  · exact updPort_shed p (.of_same rfl rfl rfl)
  · exact updPort_shed p (takeNotice_staysOpen _)
  all_goals exact .refl s

theorem windowAccess_waitKept {p : PortId} {a : Presentation} {s : State} (h : a.dir = .write → MayWait s p) :
    WaitKept s (s.windowAccess p a) := by
  have written : ∀ k be data, Shed s (s.writeRequest p k be data) := fun _ _ _ => updPort_shed p (.of_same rfl rfl rfl)
  unfold State.windowAccess
  dsimp only
  split
  · exact ((windowRead_shed p _ s).trans (answer_shed p _ _)).waitKept
  next hdir =>
  split
  · exact ((written _ _ _).trans (answer_shed p _ _)).waitKept
  · exact submit_waitKept (h hdir)
  all_goals exact (answer_shed p _ s).waitKept

theorem refuse_shed (p : PortId) (a : Presentation) (f : FaultReason) (s : State) : Shed s (s.refuse p a f) := by
  have recorded : Shed s (s.updPort p fun q =>
      { q with answer := some .busError
               lastFault := { reason := some f, addr := a.addr, dir := a.dir, width := enabledCount a.be } }) :=
    updPort_shed p (.of_same rfl rfl rfl)
  unfold State.refuse
  dsimp only
  split
  · exact recorded.trans (countFault_shed p _)
  · exact recorded

theorem accept_shed (p : PortId) (a : Presentation) (region : Option RegionId) (lease : Option (LeaseId × Generation))
    (cycle : CycleFields) (s : State) : Shed s (s.accept p a region lease cycle) := by
  have counted : ∀ r : RegionId, Shed s (s.updRegion r fun d => { d with inFlight := d.inFlight + 1 }) := fun r =>
    updRegion_shed r id
  unfold State.accept
  dsimp only
  refine .trans ?_ (updPort_shed p (.of_same rfl rfl rfl))
  cases region with
  | none =>
    cases lease with
    | none => exact .refl s
    | some l => exact putLease_shed l.1 _ s
  | some r =>
    cases lease with
    | none => exact counted r
    | some l => exact (counted r).trans (putLease_shed l.1 _ _)

/-- R30: a write that reaches the window comes from an ONLINE requester. -/
theorem online_of_window_write {s : State} {p : PortId} {a : Presentation} (h : s.judge p a = .window)
    (hw : a.dir = .write) : (s.port p).requester.state = .online := by
  have barred : s.barredException a = false := by simp [State.barredException, hw]
  unfold State.judge at h
  dsimp only at h
  split at h
  · cases h
  next notOffline =>
  split at h
  · cases h
  next notBarred =>
  cases hs : (s.port p).requester.state with
  | online => rfl
  | offline => exact absurd hs notOffline
  | quarantined => exact absurd ⟨.inl hs, barred⟩ notBarred
  | lockedOut => exact absurd ⟨.inr hs, barred⟩ notBarred

theorem carryOut_waitKept {p : PortId} (a : Presentation) {s : State} (h : s.canTake p = true) :
    WaitKept s (s.carryOut p a) := by
  obtain ⟨_, noReset⟩ := canTake_iff.mp h
  unfold State.carryOut
  split
  · exact (refuse_shed p a _ s).waitKept
  · next judged => exact windowAccess_waitKept fun hw => ⟨online_of_window_write judged hw, noReset⟩
  · exact (accept_shed p a _ _ _ s).waitKept

theorem takeStanding_waitKept (p : PortId) (s : State) : WaitKept s (s.takeStanding p) := by
  unfold State.takeStanding
  split
  · next a _ hc =>
    have taken : Shed s (s.updPort p fun q => { q with standing := none }) := updPort_shed p (.of_same rfl rfl rfl)
    refine taken.waitKept.trans (carryOut_waitKept a ?_)
    rw [canTake_iff] at hc ⊢
    rw [port_updPort_self]
    exact hc
  · exact .refl s

theorem present_waitKept (p : PortId) (a : Presentation) (s : State) : WaitKept s (s.present p a) := by
  refine (takeStanding_waitKept p s).trans ?_
  unfold State.present
  dsimp only
  split
  · next hc => exact carryOut_waitKept a hc
  · exact (updPort_shed p (.of_same rfl rfl rfl)).waitKept

theorem submitRow_waitKept (code : Nat) (p : PortId) (be : BitVec 4) (data : Word) (s : State) :
    WaitKept s (s.submitRow code p be data) := by
  unfold State.submitRow
  split
  · exact present_waitKept p _ s
  · exact .refl s

/-! ## Resets -/

theorem softResetReport_shed (s : State) : Shed s s.softResetReport := by
  unfold State.softResetReport
  split
  · exact .of_empty rfl
  · exact .refl s

theorem assertReset_shed (p : PortId) (s : State) : Shed s (s.assertReset p) := by
  have entered : ShedBut (fun w => w.requester = p) s (s.enterReset p) := updPort_shedBut p s fun _ _ => rfl
  exact (clearRequest_shed_of_shedBut entered).trans (clearPort_shed p _)

theorem deassertReset_waitKept (p : PortId) (s : State) : WaitKept s (s.deassertReset p) := by
  have left : Shed s (s.updRequester p fun q => { q with inReset := false }) :=
    updPort_shed p ⟨id, fun _ => rfl, fun _ h => h⟩
  exact left.waitKept.trans (takeStanding_waitKept p _)

/-! ## Ends of accesses and the bus -/

/-- R23: what a retirement ends serves no waiter. -/
theorem retireTest_shed (r : RegionId) (s : State) : Shed s (s.retireTest r) := by
  unfold State.retireTest
  split
  · next done =>
    obtain ⟨retiring, _⟩ := retireDone_iff.mp done
    have ended : Shed s (s.updRegion r fun d => { d with state := .invalid }) :=
      updRegion_shed r fun h => by
        rw [retiring] at h
        rcases h with h | h <;> cases h
    exact ended.trans (finish_shed _ _ _)
  · exact .refl s

theorem drainLease_shed (id : LeaseId) (s : State) : Shed s (s.drainLease id) := by
  unfold State.drainLease
  refine settle_shed s (.trans ?_ (retireTest_shed _ _))
  split
  · exact freeLease_shed id s
  · exact putLease_shed id _ s

theorem endUnder_shed (id : LeaseId) (gen : Generation) (s : State) : Shed s (s.endUnder id gen) := by
  unfold State.endUnder
  dsimp only
  split
  · exact .refl s
  split
  · exact putLease_shed id _ s
  · exact drainLease_shed id s
  · exact .refl s
  · exact .refl s

theorem endAnswer_shed (p : PortId) (e : AccessEnd) (s : State) : Shed s (s.endAnswer p e) := by
  refine updPort_shed p ?_
  dsimp only
  split
  · exact .of_same rfl rfl rfl
  · cases e <;> exact .of_same rfl rfl rfl

theorem endRegion_shed (r : Option RegionId) (s : State) : Shed s (s.endRegion r) := by
  cases r with
  | none => exact .refl s
  | some r =>
    have counted : Shed s (s.updRegion r fun d => { d with inFlight := d.inFlight - 1 }) := updRegion_shed r id
    exact counted.trans (retireTest_shed r _)

theorem endLease_shed (l : Option (LeaseId × Generation)) (s : State) : Shed s (s.endLease l) := by
  cases l with
  | none => exact .refl s
  | some x => exact endUnder_shed x.1 x.2 s

theorem endBus_shed (p : PortId) (s : State) : Shed s (s.endBus p) := by
  unfold State.endBus
  split
  · exact (setHold_shed none s).trans (softResetReport_shed _)
  · exact .refl s

theorem endAccess_shed (p : PortId) (e : AccessEnd) (s : State) : Shed s (s.endAccess p e) :=
  (endAnswer_shed p e s).trans ((endRegion_shed _ _).trans ((endLease_shed _ _).trans (endBus_shed p _)))

theorem updAccess_shed (p : PortId) (f : AccessRecord → AccessRecord) (s : State) : Shed s (s.updAccess p f) :=
  updPort_shed p (.of_same rfl rfl rfl)

theorem grantDecision_shed (s : State) : Shed s s.grantDecision := by
  unfold State.grantDecision
  split
  · exact .refl s
  split
  · exact .refl s
  next l p _ =>
  have pointed : Shed s { s with bsq := { s.bsq with pointers := s.bsq.pointers.set l p } } := .aside rfl rfl rfl
  dsimp only
  split
  · exact pointed.trans (endAccess_shed p _ _)
  · exact pointed.trans ((updAccess_shed p _ _).trans (setHold_shed _ _))

theorem cycleComplete_shed (data : Word) (s : State) : Shed s (s.cycleComplete data) := by
  unfold State.cycleComplete
  split
  · exact .refl s
  next h _ =>
  have counted : ∀ (x : TargetId) (f : Target → Target) (g : AccessRecord → AccessRecord),
      Shed s ((s.updTarget x f).updAccess h.port g) :=
    fun x f g => (updTarget_shed x f s).trans (updAccess_shed _ g _)
  dsimp only
  split
  · exact (counted _ _ _).trans (endAccess_shed _ _ _)
  split
  · exact (counted _ _ _).trans (endAccess_shed _ _ _)
  · exact (counted _ _ _).trans (setHold_shed _ _)

theorem countTimeout_shed (x : TargetId) (a : Word) (s : State) : Shed s (s.countTimeout x a) := by
  unfold State.countTimeout
  dsimp only
  split
  · exact .aside rfl rfl rfl
  · exact .aside rfl rfl rfl

theorem cycleTimeout_shed (s : State) : Shed s s.cycleTimeout := by
  unfold State.cycleTimeout
  split
  · exact .refl s
  dsimp only
  split
  · exact .refl s
  · exact (countTimeout_shed _ _ s).trans (endAccess_shed _ _ _)

theorem bclkPeriod_shed (ready : Bool) (data : Word) (s : State) : Shed s (s.bclkPeriod ready data) := by
  unfold State.bclkPeriod
  split
  · exact .refl s
  dsimp only
  split
  · exact cycleComplete_shed data s
  split
  · exact cycleTimeout_shed s
  · exact setHold_shed _ s

/-! ## Lease time -/

theorem expireLeases_shed (s : State) : Shed s s.expireLeases := by
  unfold State.expireLeases
  split
  · exact (revokeAll_shed _ _ s).trans (raise_shedBut _ _)
  · exact .refl s

/-- R107: the count of the budgets changes nothing else of a waiter. -/
theorem lowerBudgets_waitKept (s : State) : WaitKept s s.lowerBudgets := by
  have lowered : ∀ {v : Waiter}, v ∈ s.lowerBudgets.le.waiters →
      ∃ w ∈ s.le.waiters, { w with budget := w.budget - 1 } = v := fun hv => List.mem_map.mp hv
  refine ⟨fun ho => List.pairwise_map.mpr ho, fun ⟨hk, hb⟩ => ⟨List.pairwise_map.mpr hk, fun v hv => ?_⟩, fun hh v hv => ?_⟩
  · obtain ⟨w, hw, rfl⟩ := lowered hv
    exact hb w hw
  · obtain ⟨w, hw, rfl⟩ := lowered hv
    exact hh w hw

theorem tick_waitKept (s : State) : WaitKept s s.tick := by
  unfold State.tick
  split
  · exact .refl s
  · have loaded : Shed s { s with divider := tickPeriod s.mgp.tickDiv } := .aside rfl rfl rfl
    have lowered : ∀ u : State, Shed u u.lowerLeases := fun _ => .aside rfl rfl rfl
    refine loaded.waitKept.trans (.settle _ ?_)
    exact ((lowered _).trans (expireLeases_shed _)).waitKept.trans
      ((lowerBudgets_waitKept _).trans (dropWaiters_shed _ _ _).waitKept)

theorem expireOne_shed (id : LeaseId) (s : State) : Shed s (s.expireOne id) := by
  unfold State.expireOne
  split
  · exact settle_shed s ((revoke_shed _ id s).trans (raise_shedBut _ _))
  · exact .refl s

theorem timeOutOne_shed (p : PortId) (tag : Tag) (s : State) : Shed s (s.timeOutOne p tag) :=
  settle_shed s (dropWaiters_shed _ _ s)

theorem drainOne_shed (id : LeaseId) (s : State) : Shed s (s.drainOne id) := by
  unfold State.drainOne
  split
  · exact drainLease_shed id s
  · exact .refl s

theorem refclkPeriod_waitKept (s : State) : WaitKept s s.refclkPeriod := by
  unfold State.refclkPeriod
  split
  · exact .refl s
  split
  · exact tick_waitKept s
  · exact .aside rfl rfl rfl

theorem resumeScan_shed (s : State) : Shed s s.resumeScan := by
  unfold State.resumeScan
  split
  · exact .refl s
  · have taken : Shed s { s with le := { s.le with resumeScans := s.le.resumeScans - 1 } } := .aside rfl rfl rfl
    exact taken.trans (grantScan_shed _)

/-! ## Host commands -/

theorem hostGoLive_shed (s : State) : Shed s s.hostGoLive := by
  unfold State.hostGoLive
  split
  · exact finish_shed _ _ s
  · exact .aside rfl rfl rfl

theorem hostGroupSet_shed (arg : BitVec 12) (s : State) : Shed s (s.hostGroupSet arg) := by
  unfold State.hostGroupSet
  split
  · exact finish_shed _ _ s
  dsimp only
  split
  · exact .aside rfl rfl rfl
  · exact finish_shed _ _ s

/-- R18: a commit keeps the state of a slot that serves waiters. -/
theorem hostRegionCommit_shed (arg : BitVec 12) (s : State) : Shed s (s.hostRegionCommit arg) := by
  have committed : ∀ (r : RegionId) (staged : Region), Shed s (s.updRegion r fun old => installed old staged) :=
    fun r staged => updRegion_shed r fun h => by
      unfold installed
      rwa [if_neg (by rcases h with h | h <;> rw [h] <;> decide)]
  unfold State.hostRegionCommit
  split
  · exact finish_shed _ _ s
  split
  · exact finish_shed _ _ s
  · exact (committed _ _).trans (finish_shed _ _ _)

theorem hostRegionSuspend_shed (arg : BitVec 12) (s : State) : Shed s (s.hostRegionSuspend arg) := by
  have suspended : ∀ r : RegionId, Shed s (s.updRegion r fun d => { d with state := .suspended }) := fun r =>
    updRegion_shed r fun _ => .inr rfl
  unfold State.hostRegionSuspend
  split
  · exact finish_shed _ _ s
  split
  · exact (suspended _).trans (finish_shed _ _ _)
  · exact finish_shed _ _ s

theorem hostRegionResume_shed (arg : BitVec 12) (s : State) : Shed s (s.hostRegionResume arg) := by
  have resumed : ∀ r : RegionId, Shed s (s.updRegion r fun d => { d with state := .active }) := fun r =>
    updRegion_shed r fun _ => .inl rfl
  unfold State.hostRegionResume
  split
  · exact finish_shed _ _ s
  split
  · exact (resumed _).trans (.aside rfl rfl rfl)
  · exact finish_shed _ _ s

theorem hostRegionRetire_shed (arg : BitVec 12) (s : State) : Shed s (s.hostRegionRetire arg) := by
  unfold State.hostRegionRetire
  split
  · exact finish_shed _ _ s
  split
  · exact (retiringState_shed _ s).trans (retireTest_shed _ _)
  · exact finish_shed _ _ s

theorem hostLeaseRevoke_shed (arg : BitVec 12) (s : State) : Shed s (s.hostLeaseRevoke arg) := by
  unfold State.hostLeaseRevoke
  split
  · exact finish_shed _ _ s
  split
  · exact finish_shed _ _ s
  · exact (settle_shed s (revoke_shed _ _ s)).trans (finish_shed _ _ _)

theorem hostPurge_shed (arg : BitVec 12) (s : State) : Shed s (s.hostPurge arg) := by
  have emptied : ∀ (p : PortId) (u : State), Shed u (u.updPort p fun q => { q with board := Vector.replicate 4 none }) :=
    fun p u => updPort_shed p ⟨id, id, fun tag _ => Vector.getElem_replicate tag.isLt⟩
  unfold State.hostPurge
  split
  · exact finish_shed _ _ s
  · exact (settle_shed s ((freeTombstones_shed _ s).trans (emptied _ _))).trans (finish_shed _ _ _)

theorem hostPortOnline_shed (arg : BitVec 12) (s : State) : Shed s (s.hostPortOnline arg) := by
  have online : ∀ p : PortId, Shed s (s.setRequester p .online) := fun p =>
    updRequester_shed p (fun _ _ => rfl) fun _ => rfl
  unfold State.hostPortOnline
  split
  · exact finish_shed _ _ s
  split
  · exact (online _).trans (finish_shed _ _ _)
  · exact finish_shed _ _ s

theorem hostPortOffline_shed (arg : BitVec 12) (s : State) : Shed s (s.hostPortOffline arg) := by
  have offline : ∀ p : PortId, ShedBut (fun w => w.requester = p) s (s.setRequester p .offline) := fun p =>
    updRequester_shedBut p _ s
  unfold State.hostPortOffline
  split
  · exact finish_shed _ _ s
  split
  · exact (clearRequest_shed_of_shedBut (offline _)).trans ((clearPort_shed _ _).trans (finish_shed _ _ _))
  · exact finish_shed _ _ s

theorem hostPortRestore_shed (arg : BitVec 12) (s : State) : Shed s (s.hostPortRestore arg) := by
  have restored : ∀ p : PortId, Shed s (s.updRequester p fun q => { q with state := .online, faults := 0 }) := fun p =>
    updRequester_shed p (fun _ _ => rfl) fun _ => rfl
  unfold State.hostPortRestore
  split
  · exact finish_shed _ _ s
  split
  · exact (restored _).trans (finish_shed _ _ _)
  · exact finish_shed _ _ s

theorem hostTargetClear_shed (arg : BitVec 12) (s : State) : Shed s (s.hostTargetClear arg) := by
  unfold State.hostTargetClear
  split
  · exact finish_shed _ _ s
  · exact .aside rfl rfl rfl

theorem startSoftReset_shed (s : State) : Shed s s.startSoftReset := by
  have begun : Shed s { s with mgp := { s.mgp with unit := .softResetting }, freeDraws := s.freeDraws + 1 } :=
    .aside rfl rfl rfl
  exact (begun.trans (ShedBut.foldl (fun s p => endAccess_shed p _ s) _ _)).trans (softResetReport_shed _)

theorem dispatch_shed (code : BitVec 4) (arg : BitVec 12) (s : State) : Shed s (s.dispatch code arg) := by
  unfold State.dispatch
  split
  · exact hostGoLive_shed s
  · exact hostGroupSet_shed arg s
  · exact hostRegionCommit_shed arg s
  · exact hostRegionSuspend_shed arg s
  · exact hostRegionResume_shed arg s
  · exact hostRegionRetire_shed arg s
  · exact hostLeaseRevoke_shed arg s
  · exact hostPortOnline_shed arg s
  · exact hostPortOffline_shed arg s
  · exact hostPortRestore_shed arg s
  · exact hostPurge_shed arg s
  · exact hostTargetClear_shed arg s
  · exact startSoftReset_shed s
  · exact finish_shed _ _ s

theorem hostCommand_shed (code : BitVec 4) (s : State) : Shed s (s.hostCommand code) := by
  unfold State.hostCommand
  split
  · have taken : Shed s { s with mgp := { s.mgp with hostCmd := code } } := .aside rfl rfl rfl
    exact taken.trans (dispatch_shed code _ _)
  · exact raise_shedBut _ s

/-! ## Registers and frames -/

theorem writeWindowBase_shed (v : Word) (s : State) : Shed s (s.writeWindowBase v) := by
  unfold State.writeWindowBase
  split
  · exact .aside rfl rfl rfl
  · exact .refl s

theorem writeCrcControl_shed (v : Word) (s : State) : Shed s (s.writeCrcControl v) := by
  unfold State.writeCrcControl
  split
  · exact .aside rfl rfl rfl
  · exact .aside rfl rfl rfl
  · exact .refl s

/-- R164: the requesters at the new threshold are barred, and their waiters leave. -/
theorem writeFaultConfig_shed (v : Word) (s : State) : Shed s (s.writeFaultConfig v) := by
  unfold State.writeFaultConfig
  dsimp only
  split
  · have one : ∀ (u : State) (p : PortId), Shed u (u.lowerQuarantine p) := fun _ p =>
      updRequester_shed p (fun _ h => h) fun _ => rfl
    have inForce : Shed s { s with ptc := { s.ptc with threshold := field v 0 5, limit := field v 8 3 } } :=
      .aside rfl rfl rfl
    have lowered : Shed s (allPorts.foldl (fun s p => s.lowerQuarantine p)
        { s with ptc := { s.ptc with threshold := field v 0 5, limit := field v 8 3 } }) :=
      inForce.trans (ShedBut.foldl one allPorts _)
    split
    · refine lowered.trans (barRequest_shed_of_shedBut (ShedBut.foldl (fun u p => ?_) allPorts _))
      split
      · next reached => exact (enterBarring_shedBut p u).mono fun w hw => by rw [hw, reached]
      · exact .refl u
    · exact lowered
  · exact .refl s

theorem writeRegister_shed (n : BitVec 7) (v : Word) (s : State) : Shed s (s.writeRegister n v) := by
  have configured : ∀ p, Shed s (s.writePortConfig p v) := fun p => updRequester_shed p (fun _ h => h) fun _ => rfl
  unfold State.writeRegister
  split
  case h_1 => exact writeCrcControl_shed v s
  case h_2 => exact writeWindowBase_shed v s
  case h_8 => exact hostCommand_shed _ s
  case h_16 => exact configured 0
  case h_17 => exact configured 1
  case h_18 => exact configured 2
  case h_19 => exact configured 3
  case h_20 => exact writeFaultConfig_shed v s
  all_goals exact .aside rfl rfl rfl

theorem ncsFall_shed (s : State) : Shed s s.ncsFall := by
  unfold State.ncsFall
  split
  · exact .aside rfl rfl rfl
  · exact .refl s
  · exact .refl s

theorem sckRise_shed (sdi : Bool) (s : State) : Shed s (s.sckRise sdi) := by
  unfold State.sckRise
  split
  · exact .aside rfl rfl rfl
  · exact .refl s
  · exact .refl s

theorem sckFall_shed (s : State) : Shed s s.sckFall := by
  unfold State.sckFall
  split
  · exact .aside rfl rfl rfl
  · exact .refl s
  · exact .refl s

theorem takeFrame_shed (bits : List Bool) (crc : CrcConfig) (s : State) : Shed s (s.takeFrame bits crc) := by
  unfold State.takeFrame
  split
  · exact raise_shedBut _ s
  split
  · exact raise_shedBut _ s
  split
  · exact writeRegister_shed _ _ s
  · exact .refl s

theorem ncsRise_shed (s : State) : Shed s s.ncsRise := by
  have high : Shed s (s.setReceiver .high) := .aside rfl rfl rfl
  unfold State.ncsRise
  split
  · exact high.trans (takeFrame_shed _ _ _)
  · exact high
  · exact .refl s

theorem lowPeriod_shed (bits : List Bool) (s : State) : Shed s (s.lowPeriod bits) :=
  ((ncsFall_shed s).trans (ShedBut.foldl (fun s b => (sckRise_shed b s).trans (sckFall_shed _)) bits _)).trans
    (ncsRise_shed _)

/-! ## A step -/

theorem pinEvent_waitKept (e : PinEvent) (s : State) : WaitKept s (s.pinEvent e) := by
  cases e with
  | refclk => exact refclkPeriod_waitKept s
  | bclk ready data => exact (bclkPeriod_shed ready data s).waitKept
  | ncsFall => exact (ncsFall_shed s).waitKept
  | sckRise sdi => exact (sckRise_shed sdi s).waitKept
  | sckFall => exact (sckFall_shed s).waitKept

theorem idleStep_waitKept (s : State) : WaitKept s s.idleStep := by
  unfold State.idleStep
  split
  · exact (resumeScan_shed s).waitKept
  split
  · exact takeStanding_waitKept _ s
  split
  · exact (grantDecision_shed s).waitKept
  split
  · exact .refl s
  · next e rest _ =>
    have seen : Shed s { s with inputs := rest } := .aside rfl rfl rfl
    exact seen.waitKept.trans (pinEvent_waitKept e _)

/-- Every command but a claim, a tick and those that take a presentation only sheds waiters. -/
theorem exec_waitKept {c : Instr} {s t : State} (h : exec c s = .next t) : WaitKept s t := by
  cases c <;> cases h
  case powerOnReset | nreset => exact (ShedBut.of_empty rfl).waitKept
  case rqrstAssertion p => exact (assertReset_shed p s).waitKept
  case rqrstDeassertion p => exact deassertReset_waitKept p s
  case tick => exact tick_waitKept s
  case leaseExpiry id => exact (expireOne_shed id s).waitKept
  case waitBudgetExpiry p tag => exact (timeOutOne_shed p tag s).waitKept
  case busGrantDecision => exact (grantDecision_shed s).waitKept
  case deviceCycleComplete data => exact (cycleComplete_shed data s).waitKept
  case busTimeoutExpiry => exact (cycleTimeout_shed s).waitKept
  case leaseDrainEnd id => exact (drainOne_shed id s).waitKept
  case retireCompletion r => exact (retireTest_shed r s).waitKept
  case softResetCompletion => exact (softResetReport_shed s).waitKept
  case resumeGrantScan => exact (resumeScan_shed s).waitKept
  case tableIndexWrite | eventFlagsWrite | eventEnableWrite => exact .aside rfl rfl rfl
  case windowBaseWrite v => exact (writeWindowBase_shed v s).waitKept
  case faultConfigWrite v => exact (writeFaultConfig_shed v s).waitKept
  case crcControlWrite v => exact (writeCrcControl_shed v s).waitKept
  case registerWrite n v => exact (writeRegister_shed n v s).waitKept
  case ncsRise bits => exact (lowPeriod_shed bits s).waitKept
  case claim | renew | release | upgrade | downgrade | withdraw | query | lookup => exact submitRow_waitKept _ _ _ _ s
  case accessArrival | requestWrite | resultRead | portStatusRead | noticeRead => exact present_waitKept _ _ s
  all_goals exact (hostCommand_shed _ s).waitKept

theorem step_waitKept {s t : State} (h : step s = .next t) : WaitKept s t := by
  unfold step at h
  split at h
  · cases h
    exact idleStep_waitKept s
  · next c rest _ =>
    have taken : Shed s { s with pending := rest } := .aside rfl rfl rfl
    exact taken.waitKept.trans (exec_waitKept h)

/-- Settles O53: every step keeps each law of the Wait List, and its sixteen tags bound its length. -/
theorem waitListStaysWellFormed : Obligations.WaitListStaysWellFormed := by
  intro s t h
  have kept := step_waitKept h
  refine ⟨fun hunique ⟨_, hhold⟩ => ?_, kept.ordered⟩
  obtain ⟨keys, silent⟩ := kept.tags hunique
  exact ⟨length_le_of_keysUnique keys, ⟨keys, silent⟩, kept.hold hhold⟩

end Sys2Proof.Machine
end

section
/-! SUPPORT. Lease time as a law of each event (R109): what a change of one record keeps of it, and the operations of the Lease
Engine. An event keeps the law where each HELD lease it leaves was granted in it, renewed in it, or keeps its count; a tick alone
passes through states where the law fails, and mends them before it ends. -/

namespace Sys2Proof.Machine

open Sys2Proof.Safety Sys2Proof.Claims

/-! ## The law, record by record -/

/-- R109: the remaining ticks of the lease, where it is HELD, lie between 1 and its term. -/
def HasTime (l : Lease) : Prop := l.state = .held → 1 ≤ l.remaining ∧ l.remaining ≤ l.term

theorem hasTime_of_ne_held {l : Lease} (h : l.state ≠ .held) : HasTime l := fun k => absurd k h

/-- A change of other fields of a record. -/
theorem HasTime.of_same {l l' : Lease} (h : HasTime l) (hs : l'.state = l.state) (hr : l'.remaining = l.remaining)
    (ht : l'.term = l.term) : HasTime l' := fun hh => by
  rw [hr, ht]
  exact h (hs ▸ hh)

/-- R62: the term of a grant is at least 1, for the region's is. -/
theorem one_le_cappedTerm {requested regionTerm : Nat} (h : 1 ≤ regionTerm) : 1 ≤ cappedTerm requested regionTerm := by
  unfold cappedTerm
  split
  · exact h
  · omega

theorem hasTime_of_termsHold {s : State} (h : TermsHold s) (id : LeaseId) : HasTime (s.lease id) := h.2 id

/-- The law of lease time, where it holds of `s`, holds of `t`. -/
structure TermsKept (s t : State) : Prop where
  termsHold : TermsHold s → TermsHold t

namespace TermsKept

theorem refl (s : State) : TermsKept s s := ⟨id⟩

theorem trans {s t u : State} (h : TermsKept s t) (k : TermsKept t u) : TermsKept s u := ⟨k.termsHold ∘ h.termsHold⟩

theorem foldl {α : Type} {f : State → α → State} (h : ∀ s a, TermsKept s (f s a)) (l : List α) (s : State) :
    TermsKept s (l.foldl f s) := by
  induction l generalizing s with
  | nil => exact refl s
  | cons a l ih => exact (h s a).trans (ih (f s a))

/-- A change of neither the Lease Table nor the slots of the map. -/
theorem aside {s t : State} (hl : t.le.leases = s.le.leases) (hr : t.mu.regions = s.mu.regions) : TermsKept s t := by
  refine ⟨fun ⟨hterm, htime⟩ => ⟨fun r => ?_, fun id => ?_⟩⟩
  · unfold State.region
    rw [hr]
    exact hterm r
  · unfold State.lease
    rw [hl]
    exact htime id

end TermsKept

/-- An operation of the Lease Engine, by what it makes of each lease. -/
theorem LeaseWork.termsKept {s t : State} (h : LeaseWork s t) (hl : TermsHold s → ∀ id : LeaseId, HasTime (t.lease id)) :
    TermsKept s t :=
  ⟨fun hs => ⟨fun r => by rw [h.region]; exact hs.1 r, hl hs⟩⟩

theorem updRegion_termsKept (r : RegionId) {f : Region → Region} (s : State)
    (h : 1 ≤ (s.region r).term → 1 ≤ (f (s.region r)).term) : TermsKept s (s.updRegion r f) := by
  refine ⟨fun ⟨hterm, htime⟩ => ⟨fun k => ?_, htime⟩⟩
  rw [region_updRegion]
  split
  · next e =>
    subst e
    exact h (hterm r)
  · exact hterm k

theorem updPort_termsKept (p : PortId) (f : Port → Port) (s : State) : TermsKept s (s.updPort p f) := .aside rfl rfl

theorem updRequester_termsKept (p : PortId) (f : Requester → Requester) (s : State) :
    TermsKept s (s.updRequester p f) := .aside rfl rfl

theorem placeNotice_termsKept (p : PortId) (tag : Tag) (n : ClaimNotice) (s : State) :
    TermsKept s (s.placeNotice p tag n) := .aside rfl rfl

theorem clearPort_termsKept (p : PortId) (s : State) : TermsKept s (s.clearPort p) := .aside rfl rfl

theorem removeWaiters_termsKept (out : Waiter → Bool) (s : State) : TermsKept s (s.removeWaiters out) := .aside rfl rfl

theorem raise_termsKept (e : Event) (s : State) : TermsKept s (s.raise e) := .aside rfl rfl

theorem finish_termsKept (code : BitVec 4) (result : HostResult) (s : State) : TermsKept s (s.finish code result) :=
  .aside rfl rfl

/-! ## The Lease Engine -/

theorem putLease_termsKept {id : LeaseId} {l : Lease} {s : State} (h : TermsHold s → HasTime l) :
    TermsKept s (s.putLease id l) :=
  (putLease_leaseWork id l s).termsKept fun hs j => by
    rw [lease_putLease]
    split
    · exact h hs
    · exact hasTime_of_termsHold hs j

/-- A write of a record that is not HELD. -/
theorem putLease_termsKept_of_ne_held {id : LeaseId} {l : Lease} (h : l.state ≠ .held) (s : State) :
    TermsKept s (s.putLease id l) :=
  putLease_termsKept fun _ => hasTime_of_ne_held h

/-- A write of a record that leaves its state, its term and its remaining count. -/
theorem putLease_termsKept_of_same {id : LeaseId} {l : Lease} {s : State} (hs : l.state = (s.lease id).state)
    (hr : l.remaining = (s.lease id).remaining) (ht : l.term = (s.lease id).term) : TermsKept s (s.putLease id l) :=
  putLease_termsKept fun h => (hasTime_of_termsHold h id).of_same hs hr ht

theorem freeLease_termsKept (id : LeaseId) (s : State) : TermsKept s (s.freeLease id) :=
  putLease_termsKept_of_ne_held LeaseState.noConfusion s

theorem weighSlotsLow_termsKept (n : Nat) (s : State) : TermsKept s (s.weighSlotsLow n) := by
  unfold State.weighSlotsLow
  split
  · exact raise_termsKept _ s
  · exact .refl s

/-- R63, R97: a grant sets remaining equal to the term. -/
theorem grantLease_termsKept (id : LeaseId) (holder : PortId) (region : RegionId) (range : AddrRange) (mode : Mode)
    (priority : Priority) (requested : Nat) (s : State) :
    TermsKept s (s.grantLease id holder region range mode priority requested) := by
  refine .trans (putLease_termsKept fun ⟨hterm, _⟩ _ => ?_) (weighSlotsLow_termsKept _ _)
  exact ⟨one_le_cappedTerm (hterm region), le_refl _⟩

theorem scanWalk_termsKept (ahead ws : List Waiter) (s : State) : TermsKept s (scanWalk ahead ws s) := by
  induction ws generalizing ahead s with
  | nil => exact .aside rfl rfl
  | cons w ws ih =>
    unfold scanWalk
    split
    · exact ih _ s
    split
    · exact ih _ s
    split
    · exact .aside rfl rfl
    · next id _ =>
      have granted : TermsKept s (s.grantWaiter id w) :=
        (grantLease_termsKept id _ _ _ _ _ _ s).trans (placeNotice_termsKept _ _ _ _)
      exact granted.trans (ih ahead _)

theorem grantScan_termsKept (s : State) : TermsKept s s.grantScan := scanWalk_termsKept [] _ s

theorem settle_termsKept (before : State) {s t : State} (h : TermsKept s t) : TermsKept s (before.settle t) := by
  unfold State.settle
  split
  · exact h.trans (grantScan_termsKept t)
  · exact h

theorem dropWaiters_termsKept (out : Waiter → Bool) (reason : DropReason) (s : State) :
    TermsKept s (s.dropWaiters out reason) :=
  (dropWaiters_leaseWork out reason s).termsKept fun hs id => by
    rw [lease_dropWaiters]
    exact hasTime_of_termsHold hs id

/-- R73: a revocation takes the lease out of HELD. -/
theorem revoke_termsKept (x : RevokeReason) (id : LeaseId) (s : State) : TermsKept s (s.revoke x id) := by
  unfold State.revoke
  dsimp only
  split
  · exact .refl s
  split
  · exact putLease_termsKept_of_ne_held LeaseState.noConfusion s
  split
  · exact freeLease_termsKept id s
  · exact putLease_termsKept_of_ne_held LeaseState.noConfusion s

theorem revokeAll_termsKept (x : RevokeReason) (which : Lease → Bool) (s : State) :
    TermsKept s (s.revokeAll x which) := by
  refine TermsKept.foldl (fun s id => ?_) _ s
  split
  · exact revoke_termsKept x id s
  · exact .refl s

theorem clearSlot_termsKept (p : PortId) (id : LeaseId) (s : State) : TermsKept s (s.clearSlot p id) := by
  unfold State.clearSlot
  dsimp only
  split
  · exact .refl s
  split
  · exact .refl s
  · exact revoke_termsKept _ id s
  · exact putLease_termsKept_of_same rfl rfl rfl
  · exact freeLease_termsKept id s

theorem clearRequest_termsKept (p : PortId) (s : State) : TermsKept s (s.clearRequest p) :=
  settle_termsKept s ((TermsKept.foldl (fun s id => clearSlot_termsKept p id s) _ s).trans (removeWaiters_termsKept _ _))

theorem barRequest_termsKept (who : PortId → Bool) (s : State) : TermsKept s (s.barRequest who) :=
  ((revokeAll_termsKept _ _ s).trans (dropWaiters_termsKept _ _ _)).trans (grantScan_termsKept _)

theorem enterBarring_termsKept (p : PortId) (s : State) : TermsKept s (s.enterBarring p) := .aside rfl rfl

theorem countFault_termsKept (p : PortId) (s : State) : TermsKept s (s.countFault p) := by
  unfold State.countFault
  dsimp only
  split
  · exact (updRequester_termsKept p _ s).trans ((enterBarring_termsKept p _).trans (barRequest_termsKept _ _))
  · exact updRequester_termsKept p _ s

theorem freeTombstones_termsKept (p : PortId) (s : State) : TermsKept s (s.freeTombstones p) := by
  refine TermsKept.foldl (fun s id => ?_) _ s
  split
  · exact freeLease_termsKept id s
  · exact .refl s

/-! ## Lease commands -/

theorem leClaim_termsKept (p : PortId) (w0 w1 w2 : Word) (s : State) : TermsKept s (s.leClaim p w0 w1 w2).1 := by
  have weighed : ∀ w : Waiter, TermsKept s (s.weighClaim w).1 := by
    intro w
    unfold State.weighClaim
    dsimp only
    split
    · exact grantLease_termsKept _ _ _ _ _ _ _ s
    split
    · exact .refl s
    · exact settle_termsKept s (.aside rfl rfl)
  unfold State.leClaim
  split
  · split
    · exact .refl s
    · exact weighed _
  · exact .refl s

/-- R112: an OK renewal sets remaining to the term; an early one leaves it. -/
theorem leRenew_termsKept (p : PortId) (w0 : Word) (s : State) : TermsKept s (s.leRenew p w0).1 := by
  have early : TermsKept s (s.putLease (reqLease w0)
      { s.lease (reqLease w0) with faults := (s.lease (reqLease w0)).faults + 1 }) :=
    putLease_termsKept_of_same rfl rfl rfl
  have renewed : TermsKept s (s.putLease (reqLease w0)
      { s.lease (reqLease w0) with remaining := (s.lease (reqLease w0)).term }) :=
    putLease_termsKept fun h hh => by
      obtain ⟨one, le⟩ := hasTime_of_termsHold h (reqLease w0) hh
      exact ⟨one.trans le, le_refl _⟩
  unfold State.leRenew
  dsimp only
  split
  · exact .refl s
  split
  · split
    · exact settle_termsKept s (early.trans (revoke_termsKept _ _ _))
    · exact early
  split
  · exact .refl s
  · dsimp only
    exact renewed.trans (updRequester_termsKept p _ _)

theorem leRelease_termsKept (p : PortId) (w0 : Word) (s : State) : TermsKept s (s.leRelease p w0).1 := by
  have free : TermsKept s (s.settle (s.freeLease (reqLease w0))) := settle_termsKept s (freeLease_termsKept _ s)
  unfold State.leRelease
  dsimp only
  split
  · exact .refl s
  split
  · exact .refl s
  split
  · exact free
  · exact free
  · exact .refl s
  · exact .refl s

theorem leUpgrade_termsKept (p : PortId) (w0 : Word) (s : State) : TermsKept s (s.leUpgrade p w0).1 := by
  unfold State.leUpgrade
  dsimp only
  split
  · exact .refl s
  split
  · exact .refl s
  split
  · exact .refl s
  split
  · exact .refl s
  split
  · exact .refl s
  split
  · exact .refl s
  · exact putLease_termsKept_of_same rfl rfl rfl

theorem leDowngrade_termsKept (p : PortId) (w0 : Word) (s : State) : TermsKept s (s.leDowngrade p w0).1 := by
  unfold State.leDowngrade
  dsimp only
  split
  · exact .refl s
  split
  · exact settle_termsKept s (putLease_termsKept_of_same rfl rfl rfl)
  · exact .refl s

theorem leWithdraw_termsKept (p : PortId) (w0 : Word) (s : State) : TermsKept s (s.leWithdraw p w0).1 := by
  unfold State.leWithdraw
  dsimp only
  split
  · exact settle_termsKept s (removeWaiters_termsKept _ s)
  · exact .refl s

theorem leCommand_termsKept (p : PortId) (s : State) : TermsKept s (s.leCommand p).1 := by
  unfold State.leCommand
  dsimp only
  split
  · exact .refl s
  split
  · exact leClaim_termsKept p _ _ _ s
  · exact leRenew_termsKept p _ s
  · exact leRelease_termsKept p _ s
  · exact leUpgrade_termsKept p _ s
  · exact leDowngrade_termsKept p _ s
  · exact leWithdraw_termsKept p _ s
  · exact .refl s
  · exact .refl s
  · exact .refl s

theorem submit_termsKept (p : PortId) (s : State) : TermsKept s (s.submit p) := by
  have answered : TermsKept s (((s.leCommand p).1.placeReply p (s.leCommand p).2).answer p .writeDone) :=
    (leCommand_termsKept p s).trans (.aside rfl rfl)
  unfold State.submit
  dsimp only
  split
  · exact answered.trans (countFault_termsKept p _)
  · exact answered

end Sys2Proof.Machine
end

section
/-! Lease time as a law of each event (R109): accesses, the bus, the tick, host commands and resets, and that every step keeps the
law. -/

namespace Sys2Proof.Machine

open Sys2Proof.Safety Sys2Proof.Claims

/-! ## Accesses -/

theorem windowRead_termsKept (p : PortId) (w : WindowSlot) (s : State) : TermsKept s (s.windowRead p w) := by
  unfold State.windowRead
  split
  · exact updPort_termsKept p _ s
  · exact updPort_termsKept p _ s
  · exact updPort_termsKept p _ s
  all_goals exact .refl s

theorem windowAccess_termsKept (p : PortId) (a : Presentation) (s : State) : TermsKept s (s.windowAccess p a) := by
  unfold State.windowAccess
  dsimp only
  split
  · exact (windowRead_termsKept p _ s).trans (updPort_termsKept p _ _)
  split
  · exact (updPort_termsKept p _ s).trans (updPort_termsKept p _ _)
  · exact submit_termsKept p s
  all_goals exact updPort_termsKept p _ s

theorem refuse_termsKept (p : PortId) (a : Presentation) (f : FaultReason) (s : State) :
    TermsKept s (s.refuse p a f) := by
  unfold State.refuse
  dsimp only
  split
  · exact (updPort_termsKept p _ s).trans (countFault_termsKept p _)
  · exact updPort_termsKept p _ s

/-- R40: an acceptance counts an access, and no ticks. -/
theorem accept_termsKept (p : PortId) (a : Presentation) (region : Option RegionId) (lease : Option (LeaseId × Generation))
    (cycle : CycleFields) (s : State) : TermsKept s (s.accept p a region lease cycle) := by
  have counted : ∀ r : RegionId, TermsKept s (s.updRegion r fun d => { d with inFlight := d.inFlight + 1 }) := fun r =>
    updRegion_termsKept r s id
  have flying : ∀ (u : State) (id : LeaseId), TermsKept u (u.putLease id { u.lease id with inFlight := true }) :=
    fun _ _ => putLease_termsKept_of_same rfl rfl rfl
  unfold State.accept
  dsimp only
  refine .trans ?_ (updPort_termsKept p _ _)
  cases region with
  | none =>
    cases lease with
    | none => exact .refl s
    | some l => exact flying s l.1
  | some r =>
    cases lease with
    | none => exact counted r
    | some l => exact (counted r).trans (flying _ l.1)

theorem carryOut_termsKept (p : PortId) (a : Presentation) (s : State) : TermsKept s (s.carryOut p a) := by
  unfold State.carryOut
  split
  · exact refuse_termsKept p a _ s
  · exact windowAccess_termsKept p a s
  · exact accept_termsKept p a _ _ _ s

theorem takeStanding_termsKept (p : PortId) (s : State) : TermsKept s (s.takeStanding p) := by
  unfold State.takeStanding
  split
  · exact (updPort_termsKept p _ s).trans (carryOut_termsKept p _ _)
  · exact .refl s

theorem present_termsKept (p : PortId) (a : Presentation) (s : State) : TermsKept s (s.present p a) := by
  refine (takeStanding_termsKept p s).trans ?_
  unfold State.present
  dsimp only
  split
  · exact carryOut_termsKept p a _
  · exact updPort_termsKept p _ _

theorem submitRow_termsKept (code : Nat) (p : PortId) (be : BitVec 4) (data : Word) (s : State) :
    TermsKept s (s.submitRow code p be data) := by
  unfold State.submitRow
  split
  · exact present_termsKept p _ s
  · exact .refl s

/-! ## Resets -/

/-- R80, R140: no lease is HELD after a hardware reset, and every slot has a term of 1. -/
theorem hardwareReset_termsKept (s : State) : TermsKept s s.hardwareReset := by
  refine ⟨fun _ => ⟨fun r => ?_, fun id => ?_⟩⟩
  · rw [region_hardwareReset]
    exact le_refl 1
  · rw [lease_hardwareReset]
    exact nofun

/-- R181: no lease is HELD after a soft reset, which keeps the terms of the slots. -/
theorem softResetReport_termsKept (s : State) : TermsKept s s.softResetReport := by
  unfold State.softResetReport
  split
  · refine ⟨fun ⟨hterm, _⟩ => ⟨fun r => ?_, fun id => ?_⟩⟩
    · rw [region_completeSoftReset]
      exact hterm r
    · rw [lease_completeSoftReset]
      exact nofun
  · exact .refl s

theorem assertReset_termsKept (p : PortId) (s : State) : TermsKept s (s.assertReset p) :=
  ((updPort_termsKept p _ s).trans (clearRequest_termsKept p _)).trans (clearPort_termsKept p _)

theorem deassertReset_termsKept (p : PortId) (s : State) : TermsKept s (s.deassertReset p) :=
  (updRequester_termsKept p _ s).trans (takeStanding_termsKept p _)

/-! ## Ends of accesses and the bus -/

theorem retireTest_termsKept (r : RegionId) (s : State) : TermsKept s (s.retireTest r) := by
  have ended : TermsKept s (s.updRegion r fun d => { d with state := .invalid }) := updRegion_termsKept r s id
  unfold State.retireTest
  split
  · exact ended.trans (finish_termsKept _ _ _)
  · exact .refl s

theorem drainLease_termsKept (id : LeaseId) (s : State) : TermsKept s (s.drainLease id) := by
  unfold State.drainLease
  refine settle_termsKept s (.trans ?_ (retireTest_termsKept _ _))
  split
  · exact freeLease_termsKept id s
  · exact putLease_termsKept_of_ne_held LeaseState.noConfusion s

theorem endUnder_termsKept (id : LeaseId) (gen : Generation) (s : State) : TermsKept s (s.endUnder id gen) := by
  unfold State.endUnder
  dsimp only
  split
  · exact .refl s
  split
  · exact putLease_termsKept_of_same rfl rfl rfl
  · exact drainLease_termsKept id s
  · exact .refl s
  · exact .refl s

theorem endRegion_termsKept (r : Option RegionId) (s : State) : TermsKept s (s.endRegion r) := by
  cases r with
  | none => exact .refl s
  | some r =>
    have counted : TermsKept s (s.updRegion r fun d => { d with inFlight := d.inFlight - 1 }) :=
      updRegion_termsKept r s id
    exact counted.trans (retireTest_termsKept r _)

theorem endLease_termsKept (l : Option (LeaseId × Generation)) (s : State) : TermsKept s (s.endLease l) := by
  cases l with
  | none => exact .refl s
  | some x => exact endUnder_termsKept x.1 x.2 s

theorem endBus_termsKept (p : PortId) (s : State) : TermsKept s (s.endBus p) := by
  have free : TermsKept s (s.setHold none) := .aside rfl rfl
  unfold State.endBus
  split
  · exact free.trans (softResetReport_termsKept _)
  · exact .refl s

theorem endAccess_termsKept (p : PortId) (e : AccessEnd) (s : State) : TermsKept s (s.endAccess p e) :=
  (updPort_termsKept p _ s).trans
    ((endRegion_termsKept _ _).trans ((endLease_termsKept _ _).trans (endBus_termsKept p _)))

theorem grantDecision_termsKept (s : State) : TermsKept s s.grantDecision := by
  unfold State.grantDecision
  split
  · exact .refl s
  split
  · exact .refl s
  next l p _ =>
  have pointed : TermsKept s { s with bsq := { s.bsq with pointers := s.bsq.pointers.set l p } } := .aside rfl rfl
  dsimp only
  split
  · exact pointed.trans (endAccess_termsKept p _ _)
  · exact .aside rfl rfl

theorem cycleComplete_termsKept (data : Word) (s : State) : TermsKept s (s.cycleComplete data) := by
  unfold State.cycleComplete
  split
  · exact .refl s
  next h _ =>
  have counted : ∀ (x : TargetId) (f : Target → Target) (g : AccessRecord → AccessRecord),
      TermsKept s ((s.updTarget x f).updAccess h.port g) := fun _ _ _ => .aside rfl rfl
  dsimp only
  split
  · exact (counted _ _ _).trans (endAccess_termsKept _ _ _)
  split
  · exact (counted _ _ _).trans (endAccess_termsKept _ _ _)
  · exact .aside rfl rfl

theorem cycleTimeout_termsKept (s : State) : TermsKept s s.cycleTimeout := by
  have counted : ∀ (x : TargetId) (a : Word), TermsKept s (s.countTimeout x a) := fun x a => by
    unfold State.countTimeout
    dsimp only
    split
    · exact .aside rfl rfl
    · exact .aside rfl rfl
  unfold State.cycleTimeout
  split
  · exact .refl s
  dsimp only
  split
  · exact .refl s
  · exact (counted _ _).trans (endAccess_termsKept _ _ _)

theorem bclkPeriod_termsKept (ready : Bool) (data : Word) (s : State) : TermsKept s (s.bclkPeriod ready data) := by
  unfold State.bclkPeriod
  split
  · exact .refl s
  dsimp only
  split
  · exact cycleComplete_termsKept data s
  split
  · exact cycleTimeout_termsKept s
  · exact .aside rfl rfl

theorem startSoftReset_termsKept (s : State) : TermsKept s s.startSoftReset := by
  have begun : TermsKept s { s with mgp := { s.mgp with unit := .softResetting }, freeDraws := s.freeDraws + 1 } :=
    .aside rfl rfl
  exact (begun.trans (TermsKept.foldl (fun s p => endAccess_termsKept p _ s) _ _)).trans (softResetReport_termsKept _)

/-! ## The tick (R106) -/

@[simp] theorem lease_lowerLeases (s : State) (id : LeaseId) : s.lowerLeases.lease id = (s.lease id).lowered :=
  mapTable_get _ _ id

@[simp] theorem lowered_state (l : Lease) : l.lowered.state = l.state := by
  unfold Lease.lowered
  split <;> rfl

theorem lowered_of_held {l : Lease} (h : l.state = .held) : l.lowered = { l with remaining := l.remaining - 1 } := if_pos h

theorem lowered_of_ne_held {l : Lease} (h : l.state ≠ .held) : l.lowered = l := if_neg h

theorem expiring_iff {l : Lease} : l.expiring = true ↔ l.state = .held ∧ l.remaining = 0 := by
  simp [Lease.expiring]

/-- R106: every HELD lease at 0 is revoked EXPIRED, and no other lease changes. -/
theorem lease_expireLeases (s : State) (id : LeaseId) :
    s.expireLeases.lease id = if (s.lease id).expiring = true then Revoked .expired (s.lease id) else s.lease id := by
  unfold State.expireLeases
  split
  · rw [raise_lease, lease_revokeAll (by decide)]
    simp only [expiring_iff, ← and_assoc, and_self]
  · next none =>
    rw [if_neg fun h => none (any_allLeases.mpr ⟨id, h⟩)]

/-- R106, R109: the counts fall by 1, and the leases that come to 0 leave HELD in the same event. -/
theorem lowerAndExpire_termsKept (s : State) : TermsKept s s.lowerLeases.expireLeases := by
  refine ⟨fun h => ⟨fun r => ?_, fun id => ?_⟩⟩
  · rw [(expireLeases_leaseWork _).region]
    exact h.1 r
  rw [lease_expireLeases, lease_lowerLeases]
  split
  · refine hasTime_of_ne_held ?_
    rw [Revoked_state]
    split <;> decide
  · next stays =>
    intro hh
    rw [lowered_state] at hh
    obtain ⟨_, le⟩ := hasTime_of_termsHold h id hh
    rw [expiring_iff, not_and, lowered_state] at stays
    have positive := stays hh
    rw [lowered_of_held hh] at positive ⊢
    dsimp only at positive ⊢
    omega

theorem tick_termsKept (s : State) : TermsKept s s.tick := by
  unfold State.tick
  split
  · exact .refl s
  · refine .trans (t := { s with divider := tickPeriod s.mgp.tickDiv }) (.aside rfl rfl) (settle_termsKept _ ?_)
    refine (lowerAndExpire_termsKept _).trans (.trans ?_ (dropWaiters_termsKept _ _ _))
    exact .aside rfl rfl

theorem expireOne_termsKept (id : LeaseId) (s : State) : TermsKept s (s.expireOne id) := by
  unfold State.expireOne
  split
  · exact settle_termsKept s ((revoke_termsKept _ id s).trans (raise_termsKept _ _))
  · exact .refl s

theorem drainOne_termsKept (id : LeaseId) (s : State) : TermsKept s (s.drainOne id) := by
  unfold State.drainOne
  split
  · exact drainLease_termsKept id s
  · exact .refl s

theorem refclkPeriod_termsKept (s : State) : TermsKept s s.refclkPeriod := by
  unfold State.refclkPeriod
  split
  · exact .refl s
  split
  · exact tick_termsKept s
  · exact .aside rfl rfl

theorem resumeScan_termsKept (s : State) : TermsKept s s.resumeScan := by
  unfold State.resumeScan
  split
  · exact .refl s
  · refine .trans ?_ (grantScan_termsKept _)
    exact .aside rfl rfl

/-! ## Host commands -/

/-- R9, R17: a descriptor that may be installed has a term of 1 or more. -/
theorem one_le_term_of_checkCommit {s : State} {r : RegionId} {d : Region} (h : s.checkCommit r = .ok d) :
    1 ≤ d.term := by
  obtain ⟨right, _⟩ := checkCommit_ok h
  rw [checkCommit_of_not_wrong right] at h
  split at h
  · cases h
  next staged hd =>
  split at h
  · cases h
  split at h
  · cases h
  split at h
  · cases h
  cases h
  obtain ⟨⟨_, _, hterm, _⟩, described⟩ := stagedRegion_some hd
  simp only [Undescribed, not_or] at described
  obtain ⟨_, _, _, positive, _⟩ := described
  omega

theorem hostRegionCommit_termsKept (arg : BitVec 12) (s : State) : TermsKept s (s.hostRegionCommit arg) := by
  unfold State.hostRegionCommit
  split
  · exact finish_termsKept _ _ s
  next r _ =>
  split
  · exact finish_termsKept _ _ s
  next staged checked =>
  have committed : TermsKept s (s.updRegion r fun old => installed old staged) :=
    updRegion_termsKept r s fun _ => (one_le_term_of_checkCommit checked : 1 ≤ staged.term)
  exact committed.trans (finish_termsKept _ _ _)

theorem hostRegionSuspend_termsKept (arg : BitVec 12) (s : State) : TermsKept s (s.hostRegionSuspend arg) := by
  have suspended : ∀ r : RegionId, TermsKept s (s.updRegion r fun d => { d with state := .suspended }) := fun r =>
    updRegion_termsKept r s id
  unfold State.hostRegionSuspend
  split
  · exact finish_termsKept _ _ s
  split
  · exact (suspended _).trans (finish_termsKept _ _ _)
  · exact finish_termsKept _ _ s

theorem hostRegionResume_termsKept (arg : BitVec 12) (s : State) : TermsKept s (s.hostRegionResume arg) := by
  have resumed : ∀ r : RegionId, TermsKept s (s.updRegion r fun d => { d with state := .active }) := fun r =>
    updRegion_termsKept r s id
  unfold State.hostRegionResume
  split
  · exact finish_termsKept _ _ s
  split
  · exact (resumed _).trans (.aside rfl rfl)
  · exact finish_termsKept _ _ s

theorem hostRegionRetire_termsKept (arg : BitVec 12) (s : State) : TermsKept s (s.hostRegionRetire arg) := by
  have begun : ∀ r : RegionId, TermsKept s (s.setRetiring r) := fun r =>
    (updRegion_termsKept (f := fun d => { d with state := .retiring }) r s id).trans (.aside rfl rfl)
  have retiring : ∀ r : RegionId, TermsKept s (s.retiringState r) := fun r =>
    (begun r).trans (settle_termsKept _ ((revokeAll_termsKept _ _ _).trans (dropWaiters_termsKept _ _ _)))
  unfold State.hostRegionRetire
  split
  · exact finish_termsKept _ _ s
  split
  · exact (retiring _).trans (retireTest_termsKept _ _)
  · exact finish_termsKept _ _ s

theorem hostLeaseRevoke_termsKept (arg : BitVec 12) (s : State) : TermsKept s (s.hostLeaseRevoke arg) := by
  unfold State.hostLeaseRevoke
  split
  · exact finish_termsKept _ _ s
  split
  · exact finish_termsKept _ _ s
  · exact (settle_termsKept s (revoke_termsKept _ _ s)).trans (finish_termsKept _ _ _)

theorem hostPurge_termsKept (arg : BitVec 12) (s : State) : TermsKept s (s.hostPurge arg) := by
  unfold State.hostPurge
  split
  · exact finish_termsKept _ _ s
  · exact (settle_termsKept s ((freeTombstones_termsKept _ s).trans (updPort_termsKept _ _ _))).trans
      (finish_termsKept _ _ _)

theorem hostPortOffline_termsKept (arg : BitVec 12) (s : State) : TermsKept s (s.hostPortOffline arg) := by
  unfold State.hostPortOffline
  split
  · exact finish_termsKept _ _ s
  split
  · exact (updRequester_termsKept _ _ s).trans
      ((clearRequest_termsKept _ _).trans ((clearPort_termsKept _ _).trans (finish_termsKept _ _ _)))
  · exact finish_termsKept _ _ s

/-! The commands that leave the Lease Table and the slots of the map. -/

theorem hostGoLive_termsKept (s : State) : TermsKept s s.hostGoLive := by
  unfold State.hostGoLive
  split <;> exact .aside rfl rfl

theorem hostGroupSet_termsKept (arg : BitVec 12) (s : State) : TermsKept s (s.hostGroupSet arg) := by
  unfold State.hostGroupSet
  split
  · exact .aside rfl rfl
  dsimp only
  split <;> exact .aside rfl rfl

theorem hostPortOnline_termsKept (arg : BitVec 12) (s : State) : TermsKept s (s.hostPortOnline arg) := by
  unfold State.hostPortOnline
  split
  · exact .aside rfl rfl
  split <;> exact .aside rfl rfl

theorem hostPortRestore_termsKept (arg : BitVec 12) (s : State) : TermsKept s (s.hostPortRestore arg) := by
  unfold State.hostPortRestore
  split
  · exact .aside rfl rfl
  split <;> exact .aside rfl rfl

theorem hostTargetClear_termsKept (arg : BitVec 12) (s : State) : TermsKept s (s.hostTargetClear arg) := by
  unfold State.hostTargetClear
  split <;> exact .aside rfl rfl

theorem hostCommand_termsKept (code : BitVec 4) (s : State) : TermsKept s (s.hostCommand code) := by
  unfold State.hostCommand
  split
  · refine .trans (t := { s with mgp := { s.mgp with hostCmd := code } }) (.aside rfl rfl) ?_
    unfold State.dispatch
    split
    · exact hostGoLive_termsKept _
    · exact hostGroupSet_termsKept _ _
    · exact hostRegionCommit_termsKept _ _
    · exact hostRegionSuspend_termsKept _ _
    · exact hostRegionResume_termsKept _ _
    · exact hostRegionRetire_termsKept _ _
    · exact hostLeaseRevoke_termsKept _ _
    · exact hostPortOnline_termsKept _ _
    · exact hostPortOffline_termsKept _ _
    · exact hostPortRestore_termsKept _ _
    · exact hostPurge_termsKept _ _
    · exact hostTargetClear_termsKept _ _
    · exact startSoftReset_termsKept _
    · exact finish_termsKept _ _ _
  · exact raise_termsKept _ s

/-! ## Registers and frames -/

theorem writeWindowBase_termsKept (v : Word) (s : State) : TermsKept s (s.writeWindowBase v) := by
  unfold State.writeWindowBase
  split <;> exact .aside rfl rfl

theorem writeCrcControl_termsKept (v : Word) (s : State) : TermsKept s (s.writeCrcControl v) := by
  unfold State.writeCrcControl
  split <;> exact .aside rfl rfl

theorem writeFaultConfig_termsKept (v : Word) (s : State) : TermsKept s (s.writeFaultConfig v) := by
  unfold State.writeFaultConfig
  dsimp only
  split
  · have inForce : TermsKept s { s with ptc := { s.ptc with threshold := field v 0 5, limit := field v 8 3 } } :=
      .aside rfl rfl
    have one : ∀ (u : State) (p : PortId), TermsKept u (u.lowerQuarantine p) := fun u p => updRequester_termsKept p _ u
    have lowered := inForce.trans (TermsKept.foldl one allPorts _)
    split
    · refine lowered.trans (.trans (TermsKept.foldl (fun u p => ?_) allPorts _) (barRequest_termsKept _ _))
      split
      · exact enterBarring_termsKept p u
      · exact .refl u
    · exact lowered
  · exact .refl s

theorem writeRegister_termsKept (n : BitVec 7) (v : Word) (s : State) : TermsKept s (s.writeRegister n v) := by
  unfold State.writeRegister
  split
  case h_1 => exact writeCrcControl_termsKept v s
  case h_2 => exact writeWindowBase_termsKept v s
  case h_8 => exact hostCommand_termsKept _ s
  case h_20 => exact writeFaultConfig_termsKept v s
  all_goals exact .aside rfl rfl

theorem ncsFall_termsKept (s : State) : TermsKept s s.ncsFall := by
  unfold State.ncsFall
  split <;> exact .aside rfl rfl

theorem sckRise_termsKept (sdi : Bool) (s : State) : TermsKept s (s.sckRise sdi) := by
  unfold State.sckRise
  split <;> exact .aside rfl rfl

theorem sckFall_termsKept (s : State) : TermsKept s s.sckFall := by
  unfold State.sckFall
  split <;> exact .aside rfl rfl

theorem takeFrame_termsKept (bits : List Bool) (crc : CrcConfig) (s : State) : TermsKept s (s.takeFrame bits crc) := by
  unfold State.takeFrame
  split
  · exact raise_termsKept _ s
  split
  · exact raise_termsKept _ s
  split
  · exact writeRegister_termsKept _ _ s
  · exact .refl s

theorem ncsRise_termsKept (s : State) : TermsKept s s.ncsRise := by
  have high : TermsKept s (s.setReceiver .high) := .aside rfl rfl
  unfold State.ncsRise
  split
  · exact high.trans (takeFrame_termsKept _ _ _)
  · exact high
  · exact .refl s

theorem lowPeriod_termsKept (bits : List Bool) (s : State) : TermsKept s (s.lowPeriod bits) :=
  ((ncsFall_termsKept s).trans
    (TermsKept.foldl (fun s b => (sckRise_termsKept b s).trans (sckFall_termsKept _)) bits _)).trans (ncsRise_termsKept _)

/-! ## A step -/

theorem pinEvent_termsKept (e : PinEvent) (s : State) : TermsKept s (s.pinEvent e) := by
  cases e with
  | refclk => exact refclkPeriod_termsKept s
  | bclk ready data => exact bclkPeriod_termsKept ready data s
  | ncsFall => exact ncsFall_termsKept s
  | sckRise sdi => exact sckRise_termsKept sdi s
  | sckFall => exact sckFall_termsKept s

theorem idleStep_termsKept (s : State) : TermsKept s s.idleStep := by
  unfold State.idleStep
  split
  · exact resumeScan_termsKept s
  split
  · exact takeStanding_termsKept _ s
  split
  · exact grantDecision_termsKept s
  split
  · exact .refl s
  · next e rest _ => exact .trans (t := { s with inputs := rest }) (.aside rfl rfl) (pinEvent_termsKept e _)

theorem exec_termsKept {c : Instr} {s t : State} (h : exec c s = .next t) : TermsKept s t := by
  cases c <;> cases h
  case powerOnReset | nreset => exact hardwareReset_termsKept s
  case rqrstAssertion p => exact assertReset_termsKept p s
  case rqrstDeassertion p => exact deassertReset_termsKept p s
  case tick => exact tick_termsKept s
  case leaseExpiry id => exact expireOne_termsKept id s
  case waitBudgetExpiry => exact settle_termsKept s (dropWaiters_termsKept _ _ s)
  case busGrantDecision => exact grantDecision_termsKept s
  case deviceCycleComplete data => exact cycleComplete_termsKept data s
  case busTimeoutExpiry => exact cycleTimeout_termsKept s
  case leaseDrainEnd id => exact drainOne_termsKept id s
  case retireCompletion r => exact retireTest_termsKept r s
  case softResetCompletion => exact softResetReport_termsKept s
  case resumeGrantScan => exact resumeScan_termsKept s
  case tableIndexWrite | eventFlagsWrite | eventEnableWrite => exact .aside rfl rfl
  case windowBaseWrite v => exact writeWindowBase_termsKept v s
  case faultConfigWrite v => exact writeFaultConfig_termsKept v s
  case crcControlWrite v => exact writeCrcControl_termsKept v s
  case registerWrite n v => exact writeRegister_termsKept n v s
  case ncsRise bits => exact lowPeriod_termsKept bits s
  case claim | renew | release | upgrade | downgrade | withdraw | query | lookup => exact submitRow_termsKept _ _ _ _ s
  case accessArrival | requestWrite | resultRead | portStatusRead | noticeRead => exact present_termsKept _ _ s
  all_goals exact hostCommand_termsKept _ s

/-- Settles O54: every event keeps the law; grants and renewals set remaining to a term of at least 1, and a tick revokes what it
counts down to 0. -/
theorem heldLeasesHaveTime : Obligations.HeldLeasesHaveTime := by
  intro s t h hstep
  unfold step at hstep
  split at hstep
  · cases hstep
    exact (idleStep_termsKept s).termsHold h
  · next c rest _ =>
    have taken : TermsKept s { s with pending := rest } := .aside rfl rfl
    exact (taken.trans (exec_termsKept hstep)).termsHold h

end Sys2Proof.Machine
end

section
/-! SUPPORT. What calls for a grant scan (R94): a lease that leaves the live states, a waiter that leaves. -/

namespace Sys2Proof.Machine

open Sys2Proof.Safety Sys2Proof.Claims

/-- R94: a lease that stays live in its mode calls for no scan. -/
theorem slotTriggers_of_live {l l' : Lease} (h : l'.live = true) (hm : l'.mode = l.mode) : slotTriggers l l' = false := by
  have used : l'.state ≠ .free := fun k => by
    rw [live_false_of_free k] at h
    cases h
  unfold slotTriggers
  rw [h, hm]
  cases l.mode <;> simp [used]

theorem slotTriggers_self (l : Lease) : slotTriggers l l = false := by
  unfold slotTriggers
  cases l.mode <;> simp

/-- R94: a live lease that leaves the live states calls for a scan. -/
theorem scanDue_of_ended {s t : State} {id : LeaseId} (h : (s.lease id).live = true) (k : (t.lease id).live = false) :
    scanDue s t = true := by
  unfold scanDue
  rw [Bool.or_eq_true]
  exact .inr (any_allLeases.mpr ⟨id, by simp [slotTriggers, h, k]⟩)

/-- R94: with as many waiters, and no slot that calls for it, there is no scan. -/
theorem scanDue_eq_false {s t : State} (hw : t.le.waiters.length = s.le.waiters.length)
    (hl : ∀ id : LeaseId, slotTriggers (s.lease id) (t.lease id) = false) : scanDue s t = false := by
  unfold scanDue
  simp [hw, hl]

theorem settle_of_due {s t : State} (h : scanDue s t = true) : s.settle t = t.grantScan := if_pos h

theorem settle_of_not_due {s t : State} (h : scanDue s t = false) : s.settle t = t := if_neg (by simp [h])

theorem settle_self (s : State) : s.settle s = s :=
  settle_of_not_due (scanDue_eq_false rfl fun _ => slotTriggers_self _)

/-- R89, R94: a drop that drops a waiter is followed by a grant scan. -/
theorem settle_dropWaiters {out : Waiter → Bool} {reason : DropReason} {s : State}
    (h : ∃ w ∈ s.le.waiters, out w = true) :
    s.settle (s.dropWaiters out reason) = (s.dropWaiters out reason).grantScan := by
  obtain ⟨w, hw, ho⟩ := h
  have fewer : (s.dropWaiters out reason).le.waiters.length < s.le.waiters.length := by
    rw [waiters_dropWaiters]
    exact List.length_filter_lt_length_iff_exists.mpr ⟨w, hw, by simp [ho]⟩
  refine settle_of_due ?_
  unfold scanDue
  rw [Bool.or_eq_true]
  exact .inl (bne_iff_ne.mpr fewer.ne')

/-- R89: where `out` names no waiter, nothing is dropped. -/
theorem dropWaiters_of_none {out : Waiter → Bool} (reason : DropReason) {s : State}
    (h : ∀ w ∈ s.le.waiters, out w = false) : s.dropWaiters out reason = s := by
  have dropped : s.le.waiters.filter out = [] := List.filter_eq_nil_iff.mpr fun w hw => by simp [h w hw]
  have stay : (s.le.waiters.filter fun w => !out w) = s.le.waiters :=
    List.filter_eq_self.mpr fun w hw => by simp [h w hw]
  unfold State.dropWaiters
  rw [dropped, stay]
  rfl

end Sys2Proof.Machine
end

section
/-! TICK (R103, R105 to R108): what the counting, the expiry and the drops make of each lease, waiter, board and flag, when the
one scan follows, and the event whole. -/

namespace Sys2Proof.Machine

open Sys2Proof.Safety Sys2Proof.Claims

/-! ## Up to the scan -/

/-- R107: a waiter with its budget counted down. -/
def Waiter.lowered (w : Waiter) : Waiter := { w with budget := w.budget - 1 }

/-- R106, R107, R108 step 1: the tick up to its scan. -/
def State.tickChanges (s : State) : State :=
  s.lowerLeases.expireLeases.lowerBudgets.dropWaiters (fun w => w.budget == 0) .timedOut

theorem tickAtLe_eq (s : State) : s.tickAtLe = s.settle s.tickChanges := rfl

theorem tickChanges_leaseWork (s : State) : LeaseWork s s.tickChanges := by
  have lowered : LeaseWork s s.lowerLeases := by constructor <;> intros <;> rfl
  exact ((lowered.trans (expireLeases_leaseWork _)).trans (setWaiters_leaseWork _ _)).trans (dropWaiters_leaseWork _ _ _)

/-- R106: a lease that has time comes to 0 where it stood HELD at 1. -/
theorem expiring_lowered_iff {l : Lease} (h : HasTime l) :
    l.lowered.expiring = true ↔ l.state = .held ∧ l.remaining = 1 := by
  rw [expiring_iff, lowered_state]
  refine and_congr_right fun hh => ?_
  obtain ⟨one, _⟩ := h hh
  rw [lowered_of_held hh]
  dsimp only
  omega

theorem lease_tickChanges (s : State) (id : LeaseId) :
    s.tickChanges.lease id =
      if (s.lease id).lowered.expiring = true then Revoked .expired (s.lease id).lowered else (s.lease id).lowered := by
  rw [State.tickChanges, lease_dropWaiters, ← lease_lowerLeases]
  exact lease_expireLeases s.lowerLeases id

/-- R106: a HELD lease is counted down, and expired where that brings it to 0. -/
theorem lease_tickChanges_of_held {s : State} {id : LeaseId} (ht : HasTime (s.lease id))
    (hh : (s.lease id).state = .held) :
    s.tickChanges.lease id =
      if (s.lease id).remaining = 1 then Revoked .expired { s.lease id with remaining := 0 }
      else { s.lease id with remaining := (s.lease id).remaining - 1 } := by
  rw [lease_tickChanges, lowered_of_held hh]
  have expires := expiring_lowered_iff ht
  rw [lowered_of_held hh] at expires
  by_cases h1 : (s.lease id).remaining = 1
  · rw [if_pos (expires.mpr ⟨hh, h1⟩), if_pos h1, h1]
  · rw [if_neg fun k => h1 (expires.mp k).2, if_neg h1]

/-- R106: the tick does not look at leases that are not HELD. -/
theorem lease_tickChanges_of_ne_held {s : State} {id : LeaseId} (h : (s.lease id).state ≠ .held) :
    s.tickChanges.lease id = s.lease id := by
  rw [lease_tickChanges, lowered_of_ne_held h, if_neg fun k => h (expiring_iff.mp k).1]

theorem free_of_tickChanges {s : State} {id : LeaseId} (h : (s.tickChanges.lease id).state = .free) :
    (s.lease id).state = .free := by
  rw [lease_tickChanges] at h
  split at h
  · rw [Revoked_state] at h
    split at h <;> cases h
  · rwa [lowered_state] at h

theorem waiters_expireLeases (s : State) : s.expireLeases.le.waiters = s.le.waiters := by
  unfold State.expireLeases
  split
  · rw [raise_le, waiters_revokeAll]
  · rfl

theorem board_expireLeases (s : State) (p : PortId) : (s.expireLeases.port p).board = (s.port p).board := by
  unfold State.expireLeases
  split
  · rw [raise_port, board_revokeAll]
  · rfl

theorem mgp_expireLeases (s : State) :
    s.expireLeases.mgp =
      if allLeases.any fun id => (s.lease id).expiring then (s.raise .leaseExpired).mgp else s.mgp := by
  unfold State.expireLeases
  split
  · exact congrArg (fun m : Management => { m with flags := m.flags ||| Event.leaseExpired.mask })
      (mgp_revokeAll _ _ s)
  · rfl

theorem waiters_lowered (s : State) :
    s.lowerLeases.expireLeases.lowerBudgets.le.waiters = s.le.waiters.map Waiter.lowered :=
  congrArg (List.map Waiter.lowered) (waiters_expireLeases s.lowerLeases)

/-- R107: the waiters with 2 ticks or more left stay, counted down. -/
theorem waiters_tickChanges (s : State) :
    s.tickChanges.le.waiters = (s.le.waiters.filter fun w => decide (2 ≤ w.budget)).map Waiter.lowered := by
  rw [State.tickChanges, waiters_dropWaiters, waiters_lowered, List.filter_map]
  congr 2
  funext w
  change (!(w.budget - 1 == 0)) = _
  rw [Bool.eq_iff_iff]
  simp only [Bool.not_eq_true', beq_eq_false_iff_ne, decide_eq_true_eq]
  omega

theorem mem_waiters_tickChanges {s : State} {v : Waiter} :
    v ∈ s.tickChanges.le.waiters ↔ ∃ w ∈ s.le.waiters, 2 ≤ w.budget ∧ w.lowered = v := by
  rw [waiters_tickChanges]
  simp [and_assoc]

theorem board_tickChanges (s : State) (p : PortId) (tag : Tag) :
    (s.tickChanges.port p).board[tag] =
      if ∃ w ∈ s.le.waiters, w.budget ≤ 1 ∧ Under p tag w then some (.dropped .timedOut) else (s.port p).board[tag] := by
  have board : (s.lowerLeases.expireLeases.lowerBudgets.port p).board = (s.port p).board :=
    board_expireLeases s.lowerLeases p
  have dropped : ∀ w : Waiter, w.lowered.budget = 0 ↔ w.budget ≤ 1 := fun w => by
    change w.budget - 1 = 0 ↔ _
    omega
  rw [State.tickChanges, board_dropWaiters, waiters_lowered]
  simp only [board, List.mem_map, exists_exists_and_eq_and, beq_iff_eq, dropped]
  rfl

/-- R108: LEASE_EXPIRED is raised where a lease comes to 0, and nothing else is. -/
theorem mgp_tickChanges (s : State) :
    s.tickChanges.mgp =
      if allLeases.any fun id => (s.lease id).lowered.expiring then (s.raise .leaseExpired).mgp else s.mgp := by
  simp only [State.tickChanges, mgp_dropWaiters, ← lease_lowerLeases]
  exact mgp_expireLeases s.lowerLeases

theorem keysUnique_tickChanges {s : State} (h : KeysUnique s.le.waiters) : KeysUnique s.tickChanges.le.waiters := by
  rw [waiters_tickChanges]
  exact List.pairwise_map.mpr (h.sublist List.filter_sublist)

/-- A grant by the scan of a tick is one of a waiter, from the state before it. -/
theorem grantedTo_of_tickChanges {s t : State} {w : Waiter} {id : LeaseId} (hf : (s.lease id).state = .free)
    (h : GrantedTo s.tickChanges t w.lowered id) : GrantedTo s t w id := by
  obtain ⟨hl, hb⟩ := h
  have same : s.tickChanges.lease id = s.lease id := lease_tickChanges_of_ne_held (by rw [hf]; decide)
  have region : (s.tickChanges.region w.region).term = (s.region w.region).term := by
    rw [(tickChanges_leaseWork s).region]
  rw [same] at hb
  have record : GrantRecord s.tickChanges w.lowered id = GrantRecord s w id := GrantRecord_eq (w := w) same region
  exact ⟨hl.trans record, hb⟩

/-! ## The event at LE -/

/-- R108: what calls for the scan of a tick: a lease that becomes a tombstone, or a waiter dropped. -/
abbrev TickScans (s : State) : Prop :=
  (∃ id : LeaseId, (s.lease id).state = .held ∧ (s.lease id).remaining = 1 ∧ (s.lease id).inFlight = false) ∨
  ∃ w ∈ s.le.waiters, w.budget ≤ 1

/-- R106, R94: a lease under the tick calls for a scan where it becomes a tombstone. -/
theorem slotTriggers_tickChanges {s : State} {id : LeaseId} (ht : HasTime (s.lease id)) :
    slotTriggers (s.lease id) (s.tickChanges.lease id) = true ↔
      (s.lease id).state = .held ∧ (s.lease id).remaining = 1 ∧ (s.lease id).inFlight = false := by
  by_cases hh : (s.lease id).state = .held
  · rw [lease_tickChanges_of_held ht hh]
    by_cases h1 : (s.lease id).remaining = 1
    · rw [if_pos h1]
      cases hf : (s.lease id).inFlight with
      | true =>
        rw [slotTriggers_of_live (by simp [Revoked, hf, Lease.live]) (by simp [Revoked, hf])]
        simp
      | false => simp [Revoked, hf, slotTriggers, Lease.live, hh, h1]
    · rw [if_neg h1]
      refine iff_of_false (Bool.not_eq_true _ ▸ slotTriggers_of_live ?_ rfl) fun k => h1 k.2.1
      simp [Lease.live, hh]
  · rw [lease_tickChanges_of_ne_held hh, slotTriggers_self]
    simp [hh]

theorem scanDue_tickChanges {s : State} (ht : TermsHold s) : scanDue s s.tickChanges = true ↔ TickScans s := by
  unfold scanDue
  rw [Bool.or_eq_true, or_comm]
  refine or_congr ?_ ?_
  · rw [any_allLeases]
    exact exists_congr fun id => slotTriggers_tickChanges (hasTime_of_termsHold ht id)
  · rw [bne_iff_ne, waiters_tickChanges, List.length_map, ne_comm, Ne, List.length_filter_eq_length_iff]
    push Not
    refine exists_congr fun w => and_congr_right fun _ => ?_
    rw [Ne, decide_eq_true_eq]
    omega

/-- Slots in use keep through the scan the record that the tick gave them. -/
theorem lease_tickAtLe {s : State} {id : LeaseId} (h : (s.lease id).state ≠ .free) :
    s.tickAtLe.lease id = s.tickChanges.lease id :=
  lease_settle_of_ne_free s s.tickChanges id fun k => h (free_of_tickChanges k)

theorem waiters_tickAtLe_sublist (s : State) :
    s.tickAtLe.le.waiters.Sublist ((s.le.waiters.filter fun w => decide (2 ≤ w.budget)).map Waiter.lowered) := by
  rw [← waiters_tickChanges]
  exact waiters_settle_sublist s s.tickChanges

section Tick

variable {s : State}

section Scan

variable (hk : KeysUnique s.le.waiters)
include hk

theorem tickAtLe_walked : Walked s.tickChanges.le.waiters s.tickChanges s.tickAtLe :=
  settle_walked s (keysUnique_tickChanges hk)

/-- R107: a waiter whose budget comes to 0 has left, and holds its notice. -/
theorem waiter_timedOut {w : Waiter} (hw : w ∈ s.le.waiters) (hb : w.budget ≤ 1) :
    (s.tickAtLe.port w.requester).board[w.tag] = some (.dropped .timedOut) ∧ Left s.tickAtLe w := by
  have apart : ∀ v ∈ s.tickChanges.le.waiters, ¬(v.requester = w.requester ∧ v.tag = w.tag) := by
    intro v hv key
    obtain ⟨u, hu, h2, rfl⟩ := mem_waiters_tickChanges.mp hv
    have : u = w := hk.eq hu hw key
    subst this
    omega
  refine ⟨?_, fun v hv => apart v ((waiters_settle_sublist s s.tickChanges).subset hv)⟩
  rcases (tickAtLe_walked hk).board w.requester w.tag with same | ⟨v, hv, hp, ht, _⟩
  · rw [same, board_tickChanges, if_pos ⟨w, hw, hb, rfl, rfl⟩]
  · exact absurd ⟨hp, ht⟩ (apart v hv)

/-- R108: the slots that were FREE stay so, but for grants of the scan. -/
theorem free_tickAtLe {id : LeaseId} (hf : (s.lease id).state = .free) :
    s.tickAtLe.lease id = s.lease id ∨ Granted s s.tickAtLe id := by
  have same : s.tickChanges.lease id = s.lease id := lease_tickChanges_of_ne_held (by rw [hf]; decide)
  rcases (tickAtLe_walked hk).grants id (by rw [same]; exact hf) with stays | ⟨v, hv, left, hg⟩
  · exact .inl (stays.trans same)
  · obtain ⟨w, hw, _, rfl⟩ := mem_waiters_tickChanges.mp hv
    exact .inr ⟨w, hw, left, grantedTo_of_tickChanges hf hg⟩

/-- R108: a waiter that had ticks left and is gone was granted a slot. -/
theorem waiter_granted_of_left {w : Waiter} (hw : w ∈ s.le.waiters) (h2 : 2 ≤ w.budget) (left : Left s.tickAtLe w) :
    ∃ id : LeaseId, GrantedTo s s.tickAtLe w id := by
  obtain ⟨id, hf, hg⟩ := (tickAtLe_walked hk).leavers w.lowered (mem_waiters_tickChanges.mpr ⟨w, hw, h2, rfl⟩) left
  exact ⟨id, grantedTo_of_tickChanges (free_of_tickChanges hf) hg⟩

theorem boardKept_tickAtLe (p : PortId) : BoardKept s s.tickAtLe p := by
  intro tag
  rcases (tickAtLe_walked hk).board p tag with same | ⟨v, hv, hp, ht, left⟩
  · rw [same, board_tickChanges]
    split
    · next h =>
      obtain ⟨w, hw, hb, rfl, rfl⟩ := h
      exact .inr ⟨w, hw, rfl, rfl, (waiter_timedOut hk hw hb).2⟩
    · exact .inl rfl
  · obtain ⟨w, hw, _, rfl⟩ := mem_waiters_tickChanges.mp hv
    exact .inr ⟨w, hw, hp, ht, left⟩

theorem flagged_tickAtLe {e : Event} (h1 : e ≠ .leaseExpired) (h2 : e ≠ .slotsLow) :
    s.tickAtLe.flagged e = s.flagged e := by
  rw [(tickAtLe_walked hk).flags e h2, State.flagged, mgp_tickChanges]
  split
  · exact flagged_raise_ne s h1
  · rfl

/-- R108: LEASE_EXPIRED is set where it was, and where a lease came to 0. -/
theorem leaseExpired_tickAtLe (ht : TermsHold s) :
    s.tickAtLe.flagged .leaseExpired = (s.flagged .leaseExpired ||
      allLeases.any fun id => (s.lease id).state == .held && (s.lease id).remaining == 1) := by
  have expires : (fun id => (s.lease id).lowered.expiring) =
      fun id => (s.lease id).state == .held && (s.lease id).remaining == 1 := by
    funext id
    rw [Bool.eq_iff_iff, expiring_lowered_iff (hasTime_of_termsHold ht id)]
    simp
  rw [(tickAtLe_walked hk).flags _ (by decide), State.flagged, mgp_tickChanges, expires]
  split
  · next h =>
    rw [h, Bool.or_true]
    exact (flagged_raise s .leaseExpired .leaseExpired).trans (Bool.or_true _)
  · next h =>
    rw [Bool.eq_false_of_not_eq_true h, Bool.or_false]
    rfl

end Scan

variable (ht : TermsHold s)
include ht

/-- R108: no scan follows a tick that makes no tombstone and drops no waiter. -/
theorem tickAtLe_of_not_scans (h : ¬TickScans s) : s.tickAtLe = s.tickChanges :=
  settle_of_not_due (Bool.eq_false_of_not_eq_true fun k => h ((scanDue_tickChanges ht).mp k))

theorem tickAtLe_done (h : TickScans s) : ScanDone s.tickAtLe := by
  rw [tickAtLe_eq, settle_of_due ((scanDue_tickChanges ht).mpr h)]
  exact grantScan_done _

/-- R107: a tick that drops no waiter leaves every one, counted down. -/
theorem waiters_tickAtLe_of_not_scans (h : ¬TickScans s) : s.tickAtLe.le.waiters = s.le.waiters.map Waiter.lowered := by
  rw [tickAtLe_of_not_scans ht h, waiters_tickChanges, List.filter_eq_self.mpr]
  intro w hw
  have : ¬w.budget ≤ 1 := fun hb => h (.inr ⟨w, hw, hb⟩)
  rw [decide_eq_true_eq]
  omega

/-- R108: a tick that expires and drops nothing only counts. -/
theorem tickAtLe_of_steady (hl : ∀ id : LeaseId, (s.lease id).state = .held → 2 ≤ (s.lease id).remaining)
    (hw : ∀ w ∈ s.le.waiters, 2 ≤ w.budget) : s.tickAtLe = s.lowerLeases.lowerBudgets := by
  have quiet : ¬TickScans s := by
    rintro (⟨id, hh, h1, _⟩ | ⟨w, hm, hb⟩)
    · have := hl id hh
      omega
    · have := hw w hm
      omega
  have none : ∀ id, (s.lowerLeases.lease id).expiring ≠ true := fun id k => by
    rw [lease_lowerLeases, expiring_lowered_iff (hasTime_of_termsHold ht id)] at k
    obtain ⟨hh, h1⟩ := k
    have := hl id hh
    omega
  have unexpired : s.lowerLeases.expireLeases = s.lowerLeases :=
    if_neg fun k => (any_allLeases.mp k).elim none
  rw [tickAtLe_of_not_scans ht quiet, State.tickChanges, unexpired]
  refine dropWaiters_of_none _ fun v hv => ?_
  obtain ⟨w, hm, rfl⟩ := List.mem_map.mp hv
  have := hw w hm
  simp only [beq_eq_false_iff_ne]
  omega

end Tick

/-- Settles O25: the tick lease by lease and waiter by waiter, then its scan along the walk, from the state with the divider
loaded. -/
theorem tickCountsDown : Obligations.TickCountsDown := by
  intro s
  refine ⟨fun hb => congrArg _ (tick_of_boot hb), fun hl terms hunique => ?_⟩
  let loaded : State := { s with divider := (s.mgp.tickDiv.toNat + 1) * 256 }
  have hk : KeysUnique loaded.le.waiters := hunique.1
  have ht : TermsHold loaded := terms
  have taken : exec .tick s = .next loaded.tickAtLe := congrArg _ (if_neg (by rw [hl]; decide))
  have work : LeaseWork loaded loaded.tickAtLe := tickAtLe_leaseWork loaded
  refine ⟨loaded.tickAtLe, taken, ?held, ?kept, fun id => free_tickAtLe hk, waiters_tickAtLe_sublist loaded,
    fun w => waiter_timedOut hk, fun w => waiter_granted_of_left hk, ?done, ?quiet,
    fun p => ⟨work.port p, boardKept_tickAtLe hk p⟩, leaseExpired_tickAtLe hk ht, ⟨work.eq, ?flags⟩, ?steady⟩
  case held =>
    intro id hh
    have used : (loaded.lease id).state ≠ .free := fun k => nomatch hh.symm.trans k
    rw [lease_tickAtLe used]
    exact lease_tickChanges_of_held (hasTime_of_termsHold ht id) hh
  case kept =>
    intro id h
    have used : (loaded.lease id).state ≠ .free ∧ (loaded.lease id).state ≠ .held := by
      change (s.lease id).state ≠ _ ∧ (s.lease id).state ≠ _
      rcases h with h | h <;> simp [h]
    exact (lease_tickAtLe used.1).trans (lease_tickChanges_of_ne_held used.2)
  case done =>
    intro scans
    exact tickAtLe_done ht scans
  case quiet =>
    intro h
    refine ⟨waiters_tickAtLe_of_not_scans ht h, fun id hf => ?_⟩
    rw [tickAtLe_of_not_scans ht h]
    exact lease_tickChanges_of_ne_held (s := loaded) fun k => nomatch hf.symm.trans k
  case flags =>
    intro e he
    simp only [List.mem_cons, List.not_mem_nil, or_false, not_or] at he
    exact flagged_tickAtLe hk he.1 he.2
  case steady =>
    intro hleases hwaiters
    have steady := tickAtLe_of_steady ht hleases hwaiters
    refine ⟨?_, fun id hf => ?_⟩
    · rw [steady]
      rfl
    · rw [steady]
      exact (lease_lowerLeases loaded id).trans (lowered_of_ne_held fun k => nomatch hf.symm.trans k)

end Sys2Proof.Machine
end

section
/-! The rows that are parts of larger events (log 4): LEASE_EXPIRY, WAIT_BUDGET_EXPIRY, LEASE_DRAIN_END and RETIRE_COMPLETION,
alone (R23, R76, R106 to R108). -/

namespace Sys2Proof.Machine

open Sys2Proof.Safety Sys2Proof.Claims

/-! ## Writes of one lease record -/

/-- R149: a live lease becomes a tombstone of its holder. -/
theorem putLease_of_revoked {id : LeaseId} {l : Lease} {s : State} (h : (s.lease id).live = true)
    (k : l.state = .revoked) : s.putLease id l = Tombstones l.holder (· + 1) (SetLease id l s) := by
  have used : (s.lease id).state ≠ .free ∧ (s.lease id).state ≠ .revoked :=
    ⟨fun e => by simp [live_false_of_free e] at h, fun e => by simp [live_false_of_revoked e] at h⟩
  unfold State.putLease State.countTombstone State.uncountTombstone freeSlotsAfter
  simp only [used, k, if_true, if_false, ne_eq, reduceCtorEq, not_false_eq_true, false_and, and_false]
  rfl

/-- R53: a live lease is freed, and no tombstone count changes. -/
theorem freeLease_of_live {id : LeaseId} {s : State} (h : (s.lease id).live = true) : s.freeLease id = Freed id s := by
  have used : (s.lease id).state ≠ .free ∧ (s.lease id).state ≠ .revoked :=
    ⟨fun e => by simp [live_false_of_free e] at h, fun e => by simp [live_false_of_revoked e] at h⟩
  unfold State.freeLease State.putLease State.countTombstone State.uncountTombstone freeSlotsAfter Lease.freeWith
  simp only [used, if_true, if_false, ne_eq, reduceCtorEq, not_true_eq_false, not_false_eq_true, and_self]
  rfl

theorem lease_setLease (id : LeaseId) (l : Lease) (s : State) (j : LeaseId) :
    (SetLease id l s).lease j = if id = j then l else s.lease j := vector_get_set _ _ _ _

theorem lease_tombstone (p : PortId) (id : LeaseId) (l : Lease) (s : State) (j : LeaseId) :
    (Tombstones p (· + 1) (SetLease id l s)).lease j = if id = j then l else s.lease j := lease_setLease id l s j

theorem lease_freed (id : LeaseId) (s : State) (j : LeaseId) :
    (Freed id s).lease j = if id = j then Lease.freeWith (s.lease id).generation else s.lease j := vector_get_set _ _ _ _

/-! ## LEASE_EXPIRY (R106, R108) -/

section Expiry

variable {s : State} {id : LeaseId}

theorem expireOne_of_expiring (h : (s.lease id).expiring = true) :
    s.expireOne id = s.settle ((s.revoke .expired id).raise .leaseExpired) := if_pos h

/-- R106: with no access in flight the lease becomes a tombstone, and a scan follows. -/
theorem expireOne_of_grounded (hh : (s.lease id).state = .held) (h0 : (s.lease id).remaining = 0)
    (hf : (s.lease id).inFlight = false) :
    s.expireOne id =
      (Tombstones (s.lease id).holder (· + 1)
        (SetLease id { s.lease id with state := .revoked, reason := some .expired } (s.raise .leaseExpired))).grantScan := by
  have live : (s.lease id).live = true := by simp [Lease.live, hh]
  have revoked : s.revoke .expired id =
      s.putLease id { s.lease id with state := .revoked, reason := some .expired } := by
    unfold State.revoke
    simp [hh, hf]
  rw [expireOne_of_expiring (expiring_iff.mpr ⟨hh, h0⟩), revoked, settle_of_due (scanDue_of_ended live _)]
  · rw [putLease_of_revoked live rfl]
    rfl
  · rw [raise_lease, lease_putLease, if_pos rfl]
    rfl

/-- R106, R108: with an access in flight the lease drains, and there is no scan. -/
theorem expireOne_of_flying (hh : (s.lease id).state = .held) (h0 : (s.lease id).remaining = 0)
    (hf : (s.lease id).inFlight = true) :
    s.expireOne id =
      SetLease id { s.lease id with state := .draining, reason := some .expired, drainEnd := some .revoked }
        (s.raise .leaseExpired) := by
  have revoked : s.revoke .expired id =
      SetLease id { s.lease id with state := .draining, reason := some .expired, drainEnd := some .revoked } s := by
    refine .trans ?_ (putLease_eq (by simp [hh]) (by simp [hh]) LeaseState.noConfusion)
    unfold State.revoke
    simp [hh, hf]
  rw [expireOne_of_expiring (expiring_iff.mpr ⟨hh, h0⟩), revoked]
  refine settle_of_not_due (scanDue_eq_false rfl fun j => ?_)
  rw [raise_lease, lease_setLease]
  split
  · next e => exact slotTriggers_of_live rfl (e ▸ rfl)
  · exact slotTriggers_self _

end Expiry

/-! ## WAIT_BUDGET_EXPIRY (R107) -/

theorem placeNotice_twice (p : PortId) (tag : Tag) (n : ClaimNotice) (s : State) :
    (s.placeNotice p tag n).placeNotice p tag n = s.placeNotice p tag n := by
  unfold State.placeNotice
  rw [updPort_updPort]
  simp

/-- Notices to waiters of one requester and tag are one notice. -/
theorem foldl_placeNotice_of_key {p : PortId} {tag : Tag} (n : ClaimNotice) {l : List Waiter} (hne : l ≠ [])
    (hl : ∀ w ∈ l, Under p tag w) (s : State) :
    l.foldl (fun s w => s.placeNotice w.requester w.tag n) s = s.placeNotice p tag n := by
  induction l generalizing s with
  | nil => exact absurd rfl hne
  | cons w l ih =>
    obtain ⟨rfl, rfl⟩ := hl w List.mem_cons_self
    rw [List.foldl_cons]
    cases l with
    | nil => rfl
    | cons v l =>
      rw [ih (List.cons_ne_nil v l) fun u hu => hl u (List.mem_cons_of_mem w hu)]
      exact placeNotice_twice _ _ n s

/-- R89: a drop of the waiters of one tag that stand in the list. -/
theorem dropWaiters_of_key {out : Waiter → Bool} {p : PortId} {tag : Tag} (reason : DropReason) {s : State}
    (h : ∃ w ∈ s.le.waiters, out w = true) (hout : ∀ w, out w = true → Under p tag w) :
    s.dropWaiters out reason =
      (s.setWaiters (s.le.waiters.filter fun w => !out w)).placeNotice p tag (.dropped reason) := by
  obtain ⟨w, hw, ho⟩ := h
  exact foldl_placeNotice_of_key _ (List.ne_nil_of_mem (List.mem_filter.mpr ⟨hw, ho⟩))
    (fun v hv => hout v (List.mem_filter.mp hv).2) _

/-! ## LEASE_DRAIN_END and RETIRE_COMPLETION (R23, R76) -/

theorem noAccessUnder_iff {s : State} {id : LeaseId} :
    s.noAccessUnder id = true ↔ ∀ q : PortId,
      (s.port q).access.state = .idle ∨ (s.port q).access.lease ≠ some (id, (s.lease id).generation) := by
  unfold State.noAccessUnder
  simp only [List.all_eq_true, mem_allPorts, forall_const, Bool.or_eq_true, beq_iff_eq, bne_iff_ne]

/-- R76: a DRAINING lease whose drain end is REVOKED becomes a tombstone. -/
theorem drainLease_of_revoked {s : State} {id : LeaseId} (h : (s.lease id).drainEnd = some .revoked) :
    s.drainLease id =
      s.settle ((s.putLease id { s.lease id with state := .revoked, inFlight := false, drainEnd := none }).retireTest
        (s.lease id).region) := by
  unfold State.drainLease
  dsimp only
  rw [if_neg (by rw [h]; decide)]

/-- R76: a DRAINING lease whose drain end is FREE is freed. -/
theorem drainLease_of_free {s : State} {id : LeaseId} (h : (s.lease id).drainEnd = some .free) :
    s.drainLease id = s.settle ((s.freeLease id).retireTest (s.lease id).region) := by
  unfold State.drainLease
  dsimp only
  rw [if_pos h]

/-- R23: what a completed retirement leaves: the slot INVALID with its fields, and REGION_RETIRE completed OK. -/
def State.retireComplete (r : RegionId) (s : State) : State :=
  (s.updRegion r fun d => { d with state := .invalid }).finish 6#4 .ok

/-- R23, R76: the completion test once lease `id` has left DRAINING, and the rest is as it was. -/
theorem retireDone_of_drained {s u : State} {id : LeaseId} (r : RegionId) (hm : u.mu = s.mu)
    (hid : (u.lease id).state ≠ .draining) (hl : ∀ j : LeaseId, j ≠ id → u.lease j = s.lease j) :
    u.retireDone r = true ↔ (s.region r).state = .retiring ∧ (s.region r).inFlight = 0 ∧
      ∀ j : LeaseId, j ≠ id → ¬((s.lease j).state = .draining ∧ (s.lease j).region = r) := by
  have region : u.region r = s.region r := by unfold State.region; rw [hm]
  rw [retireDone_iff, region]
  refine and_congr_right fun _ => and_congr_right fun _ => forall_congr' fun j => ?_
  by_cases e : j = id
  · subst e
    simp [hid]
  · simp [e, hl j e]

/-- R76: a lease that drains ends in `u`, a state that differs in its record alone; then come the completion test and the
scan. -/
theorem settle_retireTest_of_drained {s u : State} {id : LeaseId} (r : RegionId) (h : (s.lease id).live = true)
    (hm : u.mu = s.mu) (hid : (u.lease id).live = false) (hl : ∀ j : LeaseId, j ≠ id → u.lease j = s.lease j)
    [Decidable ((s.region r).state = .retiring ∧ (s.region r).inFlight = 0 ∧
      ∀ j : LeaseId, j ≠ id → ¬((s.lease j).state = .draining ∧ (s.lease j).region = r))] :
    s.settle (u.retireTest r) =
      (if (s.region r).state = .retiring ∧ (s.region r).inFlight = 0 ∧
          ∀ j : LeaseId, j ≠ id → ¬((s.lease j).state = .draining ∧ (s.lease j).region = r)
        then u.retireComplete r else u).grantScan := by
  have le : (u.retireTest r).le = u.le := (retireTest_frame r u).1
  have ended : ((u.retireTest r).lease id).live = false := by
    unfold State.lease at hid ⊢
    rw [le]
    exact hid
  have notDraining : (u.lease id).state ≠ .draining := fun k => by simp [Lease.live, k] at hid
  rw [settle_of_due (scanDue_of_ended h ended)]
  have done := retireDone_of_drained r hm notDraining hl
  congr 1
  unfold State.retireTest
  by_cases hd : u.retireDone r = true
  · rw [if_pos hd, if_pos (done.mp hd)]
    rfl
  · rw [if_neg hd, if_neg fun k => hd (done.mpr k)]

/-- Settles O26: each row where its cause stands and where it does not. -/
theorem rowsOfLargerEvents : Obligations.RowsOfLargerEvents := by
  intro s id p tag r
  dsimp only
  refine ⟨fun hh h0 hf => congrArg _ (expireOne_of_grounded hh h0 hf),
    fun hh h0 hf => congrArg _ (expireOne_of_flying hh h0 hf),
    fun h => congrArg _ (if_neg fun k => h (expiring_iff.mp k)), ?timedOut, ?noneTimedOut, ?drained,
    fun h => congrArg _ (if_neg fun ⟨hd, hn⟩ => h ⟨hd, noAccessUnder_iff.mp hn⟩),
    fun h => congrArg _ (if_pos (retireDone_iff.mpr h)), fun h => congrArg _ (if_neg fun k => h (retireDone_iff.mp k))⟩
  case timedOut =>
    intro w hw hp ht hb
    have named : ∃ w ∈ s.le.waiters, (w.requester == p && w.tag == tag && w.budget == 0) = true :=
      ⟨w, hw, by simp [hp, ht, hb]⟩
    have dropped : s.timeOutOne p tag = _ := settle_dropWaiters named
    have key : ∀ v : Waiter, (v.requester == p && v.tag == tag && v.budget == 0) = true → Under p tag v := fun v hv => by
      simp only [Bool.and_eq_true, beq_iff_eq] at hv
      exact hv.1
    rw [dropWaiters_of_key _ named key] at dropped
    exact congrArg _ dropped
  case noneTimedOut =>
    intro none
    have unnamed : ∀ w ∈ s.le.waiters, (w.requester == p && w.tag == tag && w.budget == 0) = false := fun w hw => by
      simpa [and_assoc] using none w hw
    have unchanged : s.timeOutOne p tag = s := by
      unfold State.timeOutOne
      rw [dropWaiters_of_none _ unnamed]
      exact settle_self s
    exact congrArg _ unchanged
  case drained =>
    intro hd idle
    have live : (s.lease id).live = true := by simp [Lease.live, hd]
    have ends : s.drainOne id = s.drainLease id := if_pos ⟨hd, noAccessUnder_iff.mpr idle⟩
    refine ⟨fun he => congrArg _ (ends.trans ?_), fun he => congrArg _ (ends.trans ?_)⟩
    · rw [drainLease_of_revoked he, putLease_of_revoked live rfl]
      refine settle_retireTest_of_drained (u := Tombstones _ (· + 1) (SetLease id _ s)) _ live rfl ?_ fun j hj => ?_
      · rw [lease_tombstone, if_pos rfl]
        rfl
      · rw [lease_tombstone, if_neg hj.symm]
    · rw [drainLease_of_free he, freeLease_of_live live]
      refine settle_retireTest_of_drained (u := Freed id s) _ live rfl ?_ fun j hj => ?_
      · rw [lease_freed, if_pos rfl]
        rfl
      · rw [lease_freed, if_neg hj.symm]

end Sys2Proof.Machine
end

section
/-! The Bus Sequencer's arbiter (R120 to R122) and TARGET_CLEAR (R134). -/

namespace Sys2Proof.Machine

open Sys2Proof.Safety Sys2Proof.Claims

/-- Settles O42, by whether the argument names a target. -/
theorem targetClearReturnsTheTarget : Obligations.TargetClearReturnsTheTarget := by
  intro s x hu
  have taken : exec .targetClear s = .next ((s.takeCode 12#4).hostTargetClear s.mgp.hostArg) :=
    congrArg _ (hostCommand_of_idle hu 12#4)
  rw [taken]
  unfold State.hostTargetClear
  refine ⟨fun hx => ?_, fun hlarge => ?_⟩
  · rw [argFin_of_eq hx]
    rfl
  · rw [argFin_of_le hlarge]
    rfl

/-! ## The arbiter's choice (R120) -/

/-- A search finds an element that passes, where none that may stand before it does. -/
theorem find?_of_first {α : Type} {before : α → α → Prop} {l : List α} (hl : l.Pairwise before) {test : α → Bool}
    {x : α} (hx : x ∈ l) (pass : test x = true) (fail : ∀ y, before y x → test y = false) : l.find? test = some x := by
  induction l with
  | nil => cases hx
  | cons y l ih =>
    obtain ⟨hy, hl⟩ := List.pairwise_cons.mp hl
    rcases List.mem_cons.mp hx with rfl | hx
    · exact List.find?_cons_of_pos pass
    · rw [List.find?_cons_of_neg (by simp [fail y (hy x hx)])]
      exact ih hl hx

/-- Table 6-1: the search after a pointer goes by the distance from the port behind it. -/
theorem searchOrder_pairwise : ∀ c : PortId, (searchOrder c).Pairwise fun q p => q - c - 1 < p - c - 1 := by decide

theorem mem_searchOrder : ∀ c p : PortId, p ∈ searchOrder c := by decide

theorem mem_levels : ∀ l : Priority, l ∈ ([3, 2, 1, 0] : List Priority) := by decide

/-- R120: whether a level has a waiting port. -/
theorem any_waits_iff {s : State} {l : Priority} :
    (allPorts.any fun p => s.waits p && (s.port p).requester.busPriority == l) = true ↔
      ∃ p : PortId, (s.port p).access.state = .waitingBus ∧ (s.port p).requester.busPriority = l := by
  simp [State.waits]

theorem topLevel_of_picked {s : State} {l : Priority} {p : PortId} (h : Picked s l p) : s.topLevel = some l := by
  obtain ⟨hw, hl, best⟩ := h
  refine find?_of_first (before := (· > ·)) (by decide) (mem_levels l) (any_waits_iff.mpr ⟨p, hw, hl⟩) fun k hk => ?_
  refine Bool.eq_false_of_not_eq_true fun waiting => ?_
  obtain ⟨q, hq, rfl⟩ := any_waits_iff.mp waiting
  exact absurd (best q hq).1 (not_le_of_gt hk)

/-- R120: the arbiter picks the port that the rule names. -/
theorem pick_of_picked {s : State} {l : Priority} {p : PortId} (h : Picked s l p) : s.pick = some (l, p) := by
  have search : ((searchOrder s.bsq.pointers[l]).find? fun q =>
      s.waits q && (s.port q).requester.busPriority == l) = some p := by
    obtain ⟨hw, hl, best⟩ := h
    refine find?_of_first (searchOrder_pairwise _) (mem_searchOrder _ p) (by simp [State.waits, hw, hl]) fun q hq => ?_
    refine Bool.eq_false_of_not_eq_true fun waiting => ?_
    simp only [State.waits, Bool.and_eq_true, beq_iff_eq] at waiting
    obtain ⟨hqw, hql⟩ := waiting
    exact absurd ((best q hqw).2 hql) (not_le_of_gt hq)
  unfold State.pick
  rw [topLevel_of_picked h]
  dsimp only
  rw [search]

/-- R120: with no port waiting there is nothing to pick. -/
theorem pick_of_none_waiting {s : State} (h : ∀ q : PortId, (s.port q).access.state ≠ .waitingBus) : s.pick = none := by
  cases hp : s.pick with
  | none => rfl
  | some x => exact absurd (waiting_of_pick hp) (h x.2)

/-! ## The decision (R121, R122) -/

/-- R121: the pointer of the level picked moves to the port picked. -/
def State.movePointer (l : Priority) (p : PortId) (s : State) : State :=
  { s with bsq := { s.bsq with pointers := s.bsq.pointers.set l p } }

theorem grantDecision_of_held {s : State} (h : s.bsq.hold ≠ none) : s.grantDecision = s :=
  if_pos (Option.isSome_iff_ne_none.mpr h)

theorem grantDecision_of_none_waiting {s : State} (h : ∀ q : PortId, (s.port q).access.state ≠ .waitingBus) :
    s.grantDecision = s := by
  unfold State.grantDecision
  rw [pick_of_none_waiting h]
  exact ite_self s

/-- R120 to R122: the decision by the state of the target of the port picked. -/
theorem grantDecision_of_picked {s : State} {l : Priority} {p : PortId} (hb : s.bsq.hold = none) (h : Picked s l p) :
    s.grantDecision =
      if (s.target (s.port p).access.cycle.target).state = .faulted then
        (s.movePointer l p).endAccess p (.failed .targetFaulted)
      else ((s.movePointer l p).updAccess p fun a => { a with state := .onBus }).startCycle p 0#32 := by
  unfold State.grantDecision
  rw [if_neg (by simp [hb]), pick_of_picked h]
  rfl

end Sys2Proof.Machine
end

section
/-! The end of an access (R23, R25, R76, R135 to R137): its steps 1 to 3 as one frame, with the slots whose retirement they
complete, and what they make of the Lease Table, the Wait List and the boards. -/

namespace Sys2Proof.Machine

open Sys2Proof.Safety Sys2Proof.Claims

/-! ## Step 1: the answer -/

/-- R136: the answer of an end, for an access in this direction. -/
def AccessEnd.answer (dir : Direction) : AccessEnd → Answer
  | .completed data => if dir = .read then .readData data else .writeDone
  | .failed _ => .busError

/-- Table 6-4: the reason an end gives the last-fault record. -/
def AccessEnd.fault : AccessEnd → Option FaultReason
  | .completed _ => none
  | .failed reason => some reason

/-- Port `q` after the answer to the end of port `p`'s access. -/
def State.toldPort (s : State) (p : PortId) (e : AccessEnd) (q : PortId) : Port :=
  if q = p then Told (e.answer (s.port p).access.dir) e.fault (s.port p) else s.port q

theorem port_endAnswer (p : PortId) (e : AccessEnd) (s : State) (q : PortId) :
    (s.endAnswer p e).port q = s.toldPort p e q := by
  unfold State.endAnswer State.toldPort
  rw [port_updPort]
  by_cases h : p = q
  · subst h
    rw [if_pos rfl, if_pos rfl]
    cases e <;> rfl
  · rw [if_neg h, if_neg (Ne.symm h)]

/-- R136, R137: an end changes the access record of its port, the answer and the last-fault record, and no more. -/
theorem toldPort_frame (p : PortId) (e : AccessEnd) (s : State) (q : PortId) :
    s.toldPort p e q = { s.port q with
      access := (s.toldPort p e q).access, answer := (s.toldPort p e q).answer
      lastFault := (s.toldPort p e q).lastFault } := by
  unfold State.toldPort
  split
  · next h =>
    subst h
    unfold Told
    dsimp only
    split
    · rfl
    · cases e <;> rfl
  · rfl

/-! ## Steps 2 and 3: the region and the lease -/

/-- What steps 2 and 3 of R135 leave of the part, with the slots whose retirement they complete (R23). -/
structure EndWork (done : RegionId → Prop) (s t : State) : Prop where
  bsq : t.bsq = s.bsq
  divider : t.divider = s.divider
  threshold : t.ptc.threshold = s.ptc.threshold
  limit : t.ptc.limit = s.ptc.limit
  nextArrival : t.le.nextArrival = s.le.nextArrival
  resumeScans : t.le.resumeScans = s.le.resumeScans
  freeDraws : t.freeDraws = s.freeDraws
  port : ∀ p : PortId, t.port p = { s.port p with board := (t.port p).board, tombstones := (t.port p).tombstones }
  mu : t.mu = { s.mu with regions := t.mu.regions }
  retired : ∀ r : RegionId, done r → t.region r = { s.region r with state := .invalid }
  region : ∀ r : RegionId, ¬done r → t.region r = s.region r
  completes : (∃ r : RegionId, done r) →
    t.mgp = { s.mgp with flags := t.mgp.flags, unit := .idle, hostStatus := { code := 6#4, result := .ok } } ∧
    t.flagged .cmdDone = true
  mgp : (∀ r : RegionId, ¬done r) →
    t.mgp = { s.mgp with flags := t.mgp.flags } ∧ t.flagged .cmdDone = s.flagged .cmdDone
  flags : ∀ e : Event, e ≠ .cmdDone → e ≠ .slotsLow → t.flagged e = s.flagged e

namespace EndWork

variable {done done' both : RegionId → Prop} {s t u : State}

theorem of_leaseWork (h : LeaseWork s t) (flags : ∀ e : Event, e ≠ .slotsLow → t.flagged e = s.flagged e) :
    EndWork (fun _ => False) s t where
  bsq := h.bsq
  divider := h.divider
  threshold := h.threshold
  limit := h.limit
  nextArrival := h.nextArrival
  resumeScans := h.resumeScans
  freeDraws := h.freeDraws
  port := h.port
  mu := by rw [h.mu]
  retired _ := False.elim
  region r _ := h.region r
  completes := fun ⟨_, k⟩ => k.elim
  mgp _ := ⟨h.mgp, flags _ (by decide)⟩
  flags e _ he := flags e he

theorem refl (s : State) : EndWork (fun _ => False) s s := .of_leaseWork (.refl s) fun _ _ => rfl

theorem trans (h : EndWork done s t) (k : EndWork done' t u) (hd : ∀ r, both r ↔ done r ∨ done' r) :
    EndWork both s u where
  bsq := k.bsq.trans h.bsq
  divider := k.divider.trans h.divider
  threshold := k.threshold.trans h.threshold
  limit := k.limit.trans h.limit
  nextArrival := k.nextArrival.trans h.nextArrival
  resumeScans := k.resumeScans.trans h.resumeScans
  freeDraws := k.freeDraws.trans h.freeDraws
  port p := by rw [k.port p, h.port p]
  mu := by rw [k.mu, h.mu]
  retired r hr := by
    by_cases k' : done' r
    · rw [k.retired r k']
      by_cases h' : done r
      · rw [h.retired r h']
      · rw [h.region r h']
    · rw [k.region r k', h.retired r (((hd r).mp hr).resolve_right k')]
  region r hr := by
    obtain ⟨h', k'⟩ := not_or.mp (mt (hd r).mpr hr)
    rw [k.region r k', h.region r h']
  completes hr := by
    by_cases k' : ∃ r, done' r
    · obtain ⟨unit, raised⟩ := k.completes k'
      refine ⟨?_, raised⟩
      by_cases h' : ∃ r, done r
      · rw [unit, (h.completes h').1]
      · rw [unit, (h.mgp (not_exists.mp h')).1]
    · obtain ⟨r, hr⟩ := hr
      obtain ⟨unit, raised⟩ := h.completes ⟨r, ((hd r).mp hr).resolve_right (not_exists.mp k' r)⟩
      obtain ⟨unit', flag⟩ := k.mgp (not_exists.mp k')
      exact ⟨by rw [unit', unit], flag.trans raised⟩
  mgp hr := by
    obtain ⟨unit, flag⟩ := h.mgp fun r k => hr r ((hd r).mpr (.inl k))
    obtain ⟨unit', flag'⟩ := k.mgp fun r k => hr r ((hd r).mpr (.inr k))
    exact ⟨by rw [unit', unit], flag'.trans flag⟩
  flags e h1 h2 := (k.flags e h1 h2).trans (h.flags e h1 h2)

theorem congr (h : EndWork done s t) (hd : ∀ r, both r ↔ done r) : EndWork both s t :=
  h.trans (.refl t) (by simpa using hd)

end EndWork

theorem region_retireComplete (r : RegionId) (s : State) (k : RegionId) :
    (s.retireComplete r).region k = if r = k then { s.region k with state := .invalid } else s.region k :=
  region_updRegion s r (fun d => { d with state := .invalid }) k

/-- R23: the completion test raises no flag but CMD_DONE. -/
theorem flagged_retireTest (r : RegionId) (s : State) {e : Event} (h : e ≠ .cmdDone) :
    (s.retireTest r).flagged e = s.flagged e := by
  unfold State.retireTest
  split
  · rw [flagged_finish, mask_getLsbD_ne h, Bool.or_false]
    rfl
  · rfl

/-- R23: the completion test of slot `r`. -/
theorem retireTest_endWork (r : RegionId) (s : State) :
    EndWork (fun k => k = r ∧ s.retireDone r = true) s (s.retireTest r) := by
  by_cases h : s.retireDone r = true
  · have completed : s.retireTest r = s.retireComplete r := if_pos h
    rw [completed]
    exact
      { bsq := rfl, divider := rfl, threshold := rfl, limit := rfl, nextArrival := rfl, resumeScans := rfl, freeDraws := rfl
        port := fun _ => rfl, mu := rfl
        retired := fun k hk => by
          obtain ⟨rfl, _⟩ := hk
          rw [region_retireComplete, if_pos rfl]
        region := fun k hk => by rw [region_retireComplete, if_neg fun e => hk ⟨e.symm, h⟩]
        completes := fun _ => ⟨rfl, by
          unfold State.retireComplete
          rw [flagged_finish]
          exact Bool.or_true _⟩
        mgp := fun hk => absurd ⟨rfl, h⟩ (hk r)
        flags := fun e he _ => completed ▸ flagged_retireTest r s he }
  · have kept : s.retireTest r = s := if_neg h
    rw [kept]
    exact (EndWork.refl s).congr fun k => by simp [h]

/-- R25: the in-flight count of an access's region falls by 1. -/
def State.countDown (region : Option RegionId) (s : State) : State :=
  { s with mu := { s.mu with
      regions := match region with
        | none => s.mu.regions
        | some r => s.mu.regions.set r { s.region r with inFlight := (s.region r).inFlight - 1 } } }

theorem countDown_some (r : RegionId) (s : State) :
    s.countDown (some r) = s.updRegion r fun d => { d with inFlight := d.inFlight - 1 } := rfl

theorem region_countDown (region : Option RegionId) (s : State) (r : RegionId) :
    (s.countDown region).region r =
      { s.region r with
        inFlight := if region = some r then (s.region r).inFlight - 1 else (s.region r).inFlight } := by
  cases region with
  | none => rfl
  | some k =>
    rw [countDown_some, region_updRegion]
    by_cases h : k = r
    · rw [if_pos h, if_pos (congrArg some h)]
    · rw [if_neg h, if_neg fun e => h (Option.some.inj e)]

/-- R23, R25: the end of an access in `region` completes the retirement of slot `r` with its count. -/
abbrev CountRetires (s : State) (region : Option RegionId) (r : RegionId) : Prop :=
  region = some r ∧ (s.region r).state = .retiring ∧ (s.region r).inFlight - 1 = 0 ∧
  ∀ id : LeaseId, ¬((s.lease id).state = .draining ∧ (s.lease id).region = r)

/-- Step 2 of R135: the region's count, and its completion test. -/
theorem endRegion_endWork (region : Option RegionId) (s : State) :
    EndWork (CountRetires s region) (s.countDown region) (s.endRegion region) := by
  cases region with
  | none => exact (EndWork.refl s).congr fun r => by simp
  | some k =>
    refine (retireTest_endWork k (s.countDown (some k))).congr fun r => ?_
    rw [retireDone_iff, region_countDown, if_pos rfl]
    constructor
    · rintro ⟨⟨⟩, retires⟩
      exact ⟨rfl, retires⟩
    · rintro ⟨rfl, retires⟩
      exact ⟨rfl, retires⟩

/-- R76: what a DRAINING lease becomes at its drain end. -/
def Lease.drained (l : Lease) : Lease :=
  if l.drainEnd = some .free then Lease.freeWith l.generation
  else { l with state := .revoked, inFlight := false, drainEnd := none }

theorem Lease.drained_live (l : Lease) : l.drained.live = false := by
  unfold Lease.drained
  split <;> rfl

theorem Lease.drained_generation (l : Lease) : l.drained.generation = l.generation := by
  unfold Lease.drained
  split <;> rfl

theorem Lease.drained_state_ne (l : Lease) : l.drained.state ≠ .draining := by
  unfold Lease.drained
  split <;> exact LeaseState.noConfusion

/-- R76: the drain end of a lease, with the completion test of its slot, up to the grant scan. -/
def State.beginDrainEnd (id : LeaseId) (s : State) : State :=
  (s.putLease id (s.lease id).drained).retireTest (s.lease id).region

theorem le_beginDrainEnd (id : LeaseId) (s : State) :
    (s.beginDrainEnd id).le = (s.putLease id (s.lease id).drained).le := (retireTest_frame _ _).1

theorem lease_beginDrainEnd (id : LeaseId) (s : State) (j : LeaseId) :
    (s.beginDrainEnd id).lease j = if id = j then (s.lease id).drained else s.lease j := by
  rw [← lease_putLease]
  unfold State.lease
  rw [le_beginDrainEnd]
  rfl

theorem waiters_beginDrainEnd (id : LeaseId) (s : State) : (s.beginDrainEnd id).le.waiters = s.le.waiters := by
  rw [le_beginDrainEnd, waiters_putLease]

theorem port_beginDrainEnd (id : LeaseId) (s : State) (q : PortId) :
    (s.beginDrainEnd id).port q = (s.putLease id (s.lease id).drained).port q := by
  unfold State.port
  exact congrArg (fun c : PortController => c.ports[q]) (retireTest_frame _ _).2

theorem board_beginDrainEnd (id : LeaseId) (s : State) (q : PortId) :
    ((s.beginDrainEnd id).port q).board = (s.port q).board := by
  rw [port_beginDrainEnd, board_putLease]

/-- R76: a drain end is followed by the completion test and by one grant scan. -/
theorem drainLease_of_draining {id : LeaseId} {s : State} (h : (s.lease id).state = .draining) :
    s.drainLease id = (s.beginDrainEnd id).grantScan := by
  have settled : s.drainLease id = s.settle (s.beginDrainEnd id) := by
    by_cases he : (s.lease id).drainEnd = some .free
    · rw [drainLease_of_free he, State.beginDrainEnd, Lease.drained, if_pos he]
      rfl
    · unfold State.drainLease State.beginDrainEnd Lease.drained
      dsimp only
      rw [if_neg he, if_neg he]
  rw [settled]
  refine settle_of_due (scanDue_of_ended (id := id) (by simp [Lease.live, h]) ?_)
  rw [lease_beginDrainEnd, if_pos rfl]
  exact Lease.drained_live _

/-- R96: a grant scan raises no flag but SLOTS_LOW. -/
theorem flagged_scanWalk (ahead ws : List Waiter) (s : State) {e : Event} (h : e ≠ .slotsLow) :
    (scanWalk ahead ws s).flagged e = s.flagged e := by
  induction ws generalizing ahead s with
  | nil => rfl
  | cons w ws ih =>
    unfold scanWalk
    split
    · exact ih _ s
    split
    · exact ih _ s
    split
    · rfl
    · exact (ih ahead _).trans (flagged_grantWaiter _ w s h)

theorem grantScan_endWork (s : State) : EndWork (fun _ => False) s s.grantScan :=
  .of_leaseWork (grantScan_leaseWork s) fun _ h => flagged_scanWalk [] _ s h

theorem putLease_endWork (id : LeaseId) (l : Lease) (s : State) : EndWork (fun _ => False) s (s.putLease id l) :=
  .of_leaseWork (putLease_leaseWork id l s) fun _ _ => by unfold State.flagged; rw [mgp_putLease]

/-- R23, R76: the drain end of lease `id` completes the retirement of its slot where no other lease of it drains. -/
abbrev DrainRetires (s : State) (id : LeaseId) (r : RegionId) : Prop :=
  (s.lease id).region = r ∧ (s.region r).state = .retiring ∧ (s.region r).inFlight = 0 ∧
  ∀ j : LeaseId, j ≠ id → ¬((s.lease j).state = .draining ∧ (s.lease j).region = r)

theorem beginDrainEnd_endWork (id : LeaseId) (s : State) : EndWork (DrainRetires s id) s (s.beginDrainEnd id) := by
  refine (putLease_endWork id _ s).trans (retireTest_endWork _ _) fun r => ?_
  have done := retireDone_of_drained (s := s) (u := s.putLease id (s.lease id).drained) (id := id) (s.lease id).region
    (putLease_leaseWork id _ s).mu (by rw [lease_putLease, if_pos rfl]; exact Lease.drained_state_ne _)
    fun j hj => by rw [lease_putLease, if_neg hj.symm]
  rw [false_or, done]
  exact ⟨fun ⟨e, h⟩ => ⟨e.symm, e ▸ h⟩, fun ⟨e, h⟩ => ⟨e.symm, e ▸ h⟩⟩

/-- The lease an access was accepted under drains in `s`. -/
abbrev DrainsUnder (s : State) (lease : Option (LeaseId × Generation)) (id : LeaseId) : Prop :=
  lease = some (id, (s.lease id).generation) ∧ (s.lease id).state = .draining

/-- R76: the end of an access accepted under a DRAINING lease. -/
theorem endLease_of_drains {s : State} {lease : Option (LeaseId × Generation)} {id : LeaseId}
    (h : DrainsUnder s lease id) : s.endLease lease = (s.beginDrainEnd id).grantScan := by
  obtain ⟨rfl, hd⟩ := h
  rw [← drainLease_of_draining hd]
  unfold State.endLease State.endUnder
  dsimp only
  rw [if_neg (not_not.mpr rfl), hd]

/-- R76: the end of an access accepted under a HELD lease, which has no access in flight then. -/
theorem endLease_of_held {s : State} {lease : Option (LeaseId × Generation)} {id : LeaseId}
    (h : lease = some (id, (s.lease id).generation)) (hh : (s.lease id).state = .held) :
    s.endLease lease = SetLease id { s.lease id with inFlight := false } s := by
  subst h
  unfold State.endLease State.endUnder
  dsimp only
  rw [if_neg (not_not.mpr rfl), hh]
  exact putLease_eq (by simp [hh]) (by simp [hh]) (by simp)

/-- R76: the end of an access accepted under no lease, or one that is neither HELD nor DRAINING now. -/
theorem endLease_of_unnamed {s : State} {lease : Option (LeaseId × Generation)}
    (h : ∀ id : LeaseId, lease = some (id, (s.lease id).generation) →
      (s.lease id).state ≠ .held ∧ (s.lease id).state ≠ .draining) : s.endLease lease = s := by
  cases lease with
  | none => rfl
  | some x =>
    unfold State.endLease State.endUnder
    dsimp only
    split
    · rfl
    · next hg =>
      obtain ⟨notHeld, notDraining⟩ := h x.1 (by rw [not_not.mp hg])
      split
      · contradiction
      · contradiction
      · rfl
      · rfl

/-- The cases of step 3 of R135. -/
inductive LeaseEndCase (s : State) (lease : Option (LeaseId × Generation)) : Prop
  | drains (id : LeaseId) (h : DrainsUnder s lease id) (k : s.endLease lease = (s.beginDrainEnd id).grantScan)
  | held (id : LeaseId) (h : lease = some (id, (s.lease id).generation)) (hh : (s.lease id).state = .held)
      (k : s.endLease lease = SetLease id { s.lease id with inFlight := false } s)
  | unnamed (h : ∀ id : LeaseId, lease = some (id, (s.lease id).generation) →
      (s.lease id).state ≠ .held ∧ (s.lease id).state ≠ .draining) (k : s.endLease lease = s)

theorem endLease_cases (s : State) (lease : Option (LeaseId × Generation)) : LeaseEndCase s lease := by
  by_cases hd : ∃ id, DrainsUnder s lease id
  · obtain ⟨id, h⟩ := hd
    exact .drains id h (endLease_of_drains h)
  by_cases hh : ∃ id, lease = some (id, (s.lease id).generation) ∧ (s.lease id).state = .held
  · obtain ⟨id, h, hh⟩ := hh
    exact .held id h hh (endLease_of_held h hh)
  · have unnamed : ∀ id : LeaseId, lease = some (id, (s.lease id).generation) →
        (s.lease id).state ≠ .held ∧ (s.lease id).state ≠ .draining :=
      fun id h => ⟨fun k => hh ⟨id, h, k⟩, fun k => hd ⟨id, h, k⟩⟩
    exact .unnamed unnamed (endLease_of_unnamed unnamed)

/-- An access names one lease. -/
theorem named_unique {s : State} {lease : Option (LeaseId × Generation)} {id j : LeaseId}
    (h : lease = some (id, (s.lease id).generation)) (k : lease = some (j, (s.lease j).generation)) : id = j := by
  have := h.symm.trans k
  simp only [Option.some.injEq, Prod.mk.injEq] at this
  exact this.1

/-- Step 3 of R135. -/
theorem endLease_endWork (lease : Option (LeaseId × Generation)) (s : State) :
    EndWork (fun r => ∃ id : LeaseId, DrainsUnder s lease id ∧ DrainRetires s id r) s (s.endLease lease) := by
  cases endLease_cases s lease with
  | drains id h k =>
    rw [k]
    refine (beginDrainEnd_endWork id s).trans (grantScan_endWork _) fun r => ?_
    rw [or_false]
    refine ⟨fun ⟨j, hj, hr⟩ => ?_, fun hr => ⟨id, h, hr⟩⟩
    obtain rfl := named_unique h.1 hj.1
    exact hr
  | held id h hh k =>
    have none : ∀ r, ¬∃ j : LeaseId, DrainsUnder s lease j ∧ DrainRetires s j r := by
      rintro r ⟨j, ⟨hj, hd⟩, _⟩
      rw [← named_unique h hj, hh] at hd
      cases hd
    have same : EndWork (fun _ => False) s (SetLease id { s.lease id with inFlight := false } s) :=
      .of_leaseWork (by constructor <;> intros <;> rfl) fun _ _ => rfl
    rw [k]
    exact same.congr fun r => iff_false_intro (none r)
  | unnamed h k =>
    rw [k]
    exact (EndWork.refl s).congr fun r => iff_false_intro fun ⟨j, ⟨hj, hd⟩, _⟩ => (h j hj).2 hd

/-! ## Steps 1 to 3 -/

/-- Steps 1 and 2 of R135. -/
def State.endCount (p : PortId) (e : AccessEnd) (s : State) : State := (s.endAnswer p e).endRegion (s.port p).access.region

theorem endRecords_eq (p : PortId) (e : AccessEnd) (s : State) :
    s.endRecords p e = (s.endCount p e).endLease (s.port p).access.lease := rfl

theorem le_endCount (p : PortId) (e : AccessEnd) (s : State) : (s.endCount p e).le = s.le :=
  (endRegion_frame _ (s.endAnswer p e)).1

theorem lease_endCount (p : PortId) (e : AccessEnd) (s : State) (id : LeaseId) :
    (s.endCount p e).lease id = s.lease id := by
  unfold State.lease
  rw [le_endCount]

theorem port_endCount (p : PortId) (e : AccessEnd) (s : State) (q : PortId) :
    (s.endCount p e).port q = s.toldPort p e q := by
  rw [← port_endAnswer]
  obtain ⟨_, hptc, _⟩ := endRegion_frame (s.port p).access.region (s.endAnswer p e)
  exact congrArg (fun c : PortController => c.ports[q]) hptc

/-- R135: what the end of an access at the records begins from: the answer is given, and the region's count lowered. -/
def State.endBase (p : PortId) (e : AccessEnd) (s : State) : State :=
  (s.endAnswer p e).countDown (s.port p).access.region

theorem region_endBase (p : PortId) (e : AccessEnd) (s : State) (r : RegionId) :
    (s.endBase p e).region r = { s.region r with inFlight := CountAfter s p r } :=
  region_countDown _ (s.endAnswer p e) r

/-- R23: steps 1 and 2 complete the retirement of the access's region where no lease of it drains. -/
theorem endCount_endWork (p : PortId) (e : AccessEnd) (s : State) :
    EndWork (CountRetires s (s.port p).access.region) (s.endBase p e) (s.endCount p e) :=
  endRegion_endWork (s.port p).access.region (s.endAnswer p e)

/-- R76: while a lease drains, its slot's retirement does not complete at the region's count. -/
theorem region_endCount_of_draining (p : PortId) (e : AccessEnd) {s : State} {id : LeaseId}
    (h : (s.lease id).state = .draining) :
    (s.endCount p e).region (s.lease id).region =
      { s.region (s.lease id).region with inFlight := CountAfter s p (s.lease id).region } := by
  rw [← region_endBase p e]
  exact (endCount_endWork p e s).region _ fun ⟨_, _, _, clear⟩ => clear id ⟨h, rfl⟩

/-- R23: the completions at the region's count and at the drain end are those the rule names. -/
theorem retireCompletes_iff {p : PortId} (e : AccessEnd) {s : State} {r : RegionId} :
    RetireCompletes s p r ↔
      CountRetires s (s.port p).access.region r ∨ ∃ id : LeaseId, Drained s p id ∧ DrainRetires (s.endCount p e) id r := by
  simp only [DrainRetires, lease_endCount]
  constructor
  · rintro ⟨retiring, count, cause, only⟩
    by_cases hd : ∃ id : LeaseId, Drained s p id ∧ (s.lease id).region = r
    · obtain ⟨id, drained, rfl⟩ := hd
      rw [region_endCount_of_draining p e drained.2]
      exact .inr ⟨id, drained, rfl, retiring, count, fun j hj k => hj (named_unique drained.1 (only j k.1 k.2).1).symm⟩
    · have region := cause.resolve_right hd
      rw [CountAfter, if_pos region] at count
      exact .inl ⟨region, retiring, count, fun id k => hd ⟨id, only id k.1 k.2, k.2⟩⟩
  · rintro (⟨region, retiring, count, clear⟩ | ⟨id, drained, rfl, retiring, count, only⟩)
    · exact ⟨retiring, by rwa [CountAfter, if_pos region], .inl region, fun id hd hr => absurd ⟨hd, hr⟩ (clear id)⟩
    · rw [region_endCount_of_draining p e drained.2] at retiring count
      refine ⟨retiring, count, .inr ⟨id, drained, rfl⟩, fun j hd hr => ?_⟩
      by_cases hj : j = id
      · exact hj ▸ drained
      · exact absurd ⟨hd, hr⟩ (only j hj)

/-- R135: steps 1 to 3 leave everything but the map's states and counts, the leases, the waiters, the boards and tombstone
counts, and the completion of retirements. -/
theorem endRecords_endWork (p : PortId) (e : AccessEnd) (s : State) :
    EndWork (RetireCompletes s p) (s.endBase p e) (s.endRecords p e) := by
  rw [endRecords_eq]
  refine (endCount_endWork p e s).trans (endLease_endWork _ _) fun r => (retireCompletes_iff e).trans (or_congr_right ?_)
  simp only [DrainsUnder, lease_endCount]

theorem EndWork.term {done : RegionId → Prop} {s t : State} (h : EndWork done s t) (r : RegionId) :
    (t.region r).term = (s.region r).term := by
  by_cases hr : done r
  · rw [h.retired r hr]
  · rw [h.region r hr]

/-- R76: what the end of the access under a lease makes of it. -/
def Lease.ended (l : Lease) : Lease :=
  match l.state with
  | .free => l
  | .held => { l with inFlight := false }
  | .draining => l.drained
  | .revoked => l

theorem Lease.ended_of_held {l : Lease} (h : l.state = .held) : l.ended = { l with inFlight := false } := by
  simp [Lease.ended, h]

theorem Lease.ended_of_draining {l : Lease} (h : l.state = .draining) : l.ended = l.drained := by simp [Lease.ended, h]

theorem Lease.drained_of_free {l : Lease} (h : l.drainEnd = some .free) : l.drained = Lease.freeWith l.generation := if_pos h

theorem Lease.drained_of_revoked {l : Lease} (h : l.drainEnd = some .revoked) :
    l.drained = { l with state := .revoked, inFlight := false, drainEnd := none } := if_neg (by simp [h])

theorem Lease.ended_of_gone {l : Lease} (h : l.state ≠ .held ∧ l.state ≠ .draining) : l.ended = l := by
  unfold Lease.ended
  split <;> simp_all

theorem Lease.ended_generation (l : Lease) : l.ended.generation = l.generation := by
  unfold Lease.ended
  split
  · rfl
  · rfl
  · exact l.drained_generation
  · rfl

/-- R76: the end of an access frees a lease that drains to FREE, and no other. -/
theorem Lease.free_of_ended {l : Lease} (h : l.ended.state = .free) :
    l.state = .free ∨ l.state = .draining ∧ l.drainEnd = some .free := by
  unfold Lease.ended at h
  split at h
  · exact .inl h
  · next hl => exact nomatch hl.symm.trans h
  · next hl =>
    unfold Lease.drained at h
    split at h
    · next he => exact .inr ⟨hl, he⟩
    · cases h
  · exact .inl h

/-- Step 3 of R135 in `u`, from `s`, up to the grant scan of a drain end. -/
structure UpToScan (lease : Option (LeaseId × Generation)) (s u : State) : Prop where
  record : ∀ j : LeaseId, u.lease j = if lease = some (j, (s.lease j).generation) then (s.lease j).ended else s.lease j
  waiters : u.le.waiters = s.le.waiters
  board : ∀ q : PortId, (u.port q).board = (s.port q).board
  term : ∀ r : RegionId, (u.region r).term = (s.region r).term
  drained : ∀ id : LeaseId, DrainsUnder s lease id → ∀ q : PortId, (u.port q).tombstones = (s.port q).tombstones +
    if (s.lease id).drainEnd ≠ some .free ∧ (s.lease id).holder = q then 1 else 0
  undrained : (∀ id : LeaseId, ¬DrainsUnder s lease id) →
    u.le.freeSlots = s.le.freeSlots ∧ ∀ q : PortId, (u.port q).tombstones = (s.port q).tombstones
  slotsLow : u.flagged .slotsLow = s.flagged .slotsLow

/-- R149: a drain end that frees the slot counts no tombstone, and another counts one of the holder. -/
theorem tombstones_beginDrainEnd {id : LeaseId} {s : State} (h : (s.lease id).state = .draining) (q : PortId) :
    ((s.beginDrainEnd id).port q).tombstones = (s.port q).tombstones +
      if (s.lease id).drainEnd ≠ some .free ∧ (s.lease id).holder = q then 1 else 0 := by
  rw [port_beginDrainEnd, port_putLease]
  unfold Lease.drained
  by_cases he : (s.lease id).drainEnd = some .free <;> simp [h, he, Lease.freeWith]

theorem slotsLow_beginDrainEnd (id : LeaseId) (s : State) :
    (s.beginDrainEnd id).flagged .slotsLow = s.flagged .slotsLow := by
  rw [State.beginDrainEnd, flagged_retireTest _ _ (by decide), State.flagged, mgp_putLease]
  rfl

theorem beginDrainEnd_upToScan {s : State} {lease : Option (LeaseId × Generation)} {id : LeaseId}
    (h : DrainsUnder s lease id) : UpToScan lease s (s.beginDrainEnd id) where
  record j := by
    rw [lease_beginDrainEnd]
    by_cases hj : id = j
    · subst hj
      rw [if_pos rfl, if_pos h.1, Lease.ended_of_draining h.2]
    · rw [if_neg hj, if_neg fun k => hj (named_unique h.1 k)]
  waiters := waiters_beginDrainEnd id s
  board := board_beginDrainEnd id s
  term := (beginDrainEnd_endWork id s).term
  drained j hj := by
    obtain rfl := named_unique h.1 hj.1
    exact tombstones_beginDrainEnd h.2
  undrained none := absurd h (none id)
  slotsLow := slotsLow_beginDrainEnd id s

/-- The end of an access that drains no lease changes the record of the lease it names, and no more. -/
theorem setLease_upToScan {s u : State} {lease : Option (LeaseId × Generation)}
    (hn : ∀ id : LeaseId, ¬DrainsUnder s lease id)
    (hl : ∀ j : LeaseId, u.lease j = if lease = some (j, (s.lease j).generation) then (s.lease j).ended else s.lease j)
    (hu : u = { s with le := { s.le with leases := u.le.leases } }) : UpToScan lease s u where
  record := hl
  waiters := by rw [hu]
  board q := by rw [hu]; rfl
  term r := by rw [hu]; rfl
  drained id h := absurd h (hn id)
  undrained _ := by rw [hu]; exact ⟨rfl, fun _ => rfl⟩
  slotsLow := by rw [hu]; rfl

/-- Step 3 of R135, up to the grant scan and with it. -/
theorem endLease_upToScan (lease : Option (LeaseId × Generation)) (s : State) :
    ∃ u, UpToScan lease s u ∧
      ((∀ id : LeaseId, ¬DrainsUnder s lease id) ∧ s.endLease lease = u ∨
        (∃ id : LeaseId, DrainsUnder s lease id) ∧ s.endLease lease = u.grantScan) := by
  cases endLease_cases s lease with
  | drains id h k => exact ⟨_, beginDrainEnd_upToScan h, .inr ⟨⟨id, h⟩, k⟩⟩
  | held id h hh k =>
    have none : ∀ j : LeaseId, ¬DrainsUnder s lease j := fun j hj => by
      have := hj.2
      rw [← named_unique h hj.1, hh] at this
      cases this
    refine ⟨_, setLease_upToScan none (fun j => ?_) rfl, .inl ⟨none, k⟩⟩
    rw [lease_setLease]
    by_cases hj : id = j
    · subst hj
      rw [if_pos rfl, if_pos h, Lease.ended_of_held hh]
    · rw [if_neg hj, if_neg fun k => hj (named_unique h k)]
  | unnamed h k =>
    have none : ∀ j : LeaseId, ¬DrainsUnder s lease j := fun j hj => (h j hj.1).2 hj.2
    refine ⟨s, setLease_upToScan none (fun j => ?_) rfl, .inl ⟨none, k⟩⟩
    split
    · next hj => rw [Lease.ended_of_gone (h j hj)]
    · rfl

/-- R23: steps 1 and 2 raise no flag but CMD_DONE. -/
theorem slotsLow_endCount (p : PortId) (e : AccessEnd) (s : State) :
    (s.endCount p e).flagged .slotsLow = s.flagged .slotsLow := by
  unfold State.endCount State.endRegion
  cases (s.port p).access.region with
  | none => rfl
  | some r => exact flagged_retireTest r _ (by decide)

/-- Steps 1 to 3 of R135, up to the grant scan and with it. -/
theorem endRecords_upToScan (p : PortId) (e : AccessEnd) (s : State) :
    ∃ u, UpToScan (s.port p).access.lease s u ∧
      ((∀ id : LeaseId, ¬Drained s p id) ∧ s.endRecords p e = u ∨
        (∃ id : LeaseId, Drained s p id) ∧ s.endRecords p e = u.grantScan) := by
  obtain ⟨u, upTo, ends⟩ := endLease_upToScan (s.port p).access.lease (s.endCount p e)
  have lease := lease_endCount p e s
  have le := le_endCount p e s
  simp only [DrainsUnder, lease] at ends
  refine ⟨u, ?_, ends⟩
  have tombstones : ∀ q, ((s.endCount p e).port q).tombstones = (s.port q).tombstones := fun q => by
    rw [port_endCount, toldPort_frame]
  obtain ⟨hrecord, hwaiters, hboard, hterm, hdrained, hundrained, hslots⟩ := upTo
  simp only [DrainsUnder, lease, le, tombstones] at hrecord hwaiters hdrained hundrained
  refine ⟨hrecord, hwaiters, fun q => ?_, fun r => ?_, hdrained, hundrained, hslots.trans (slotsLow_endCount p e s)⟩
  · rw [hboard, port_endCount, toldPort_frame]
  · rw [hterm, (endCount_endWork p e s).term, region_endBase]

/-! ## The grant scan of a drain end -/

namespace UpToScan

variable {lease : Option (LeaseId × Generation)} {s u t : State}

theorem generation (h : UpToScan lease s u) (j : LeaseId) : (u.lease j).generation = (s.lease j).generation := by
  rw [h.record]
  split
  · exact Lease.ended_generation _
  · rfl

theorem free (h : UpToScan lease s u) {j : LeaseId} (hf : (s.lease j).state = .free) : u.lease j = s.lease j := by
  rw [h.record, Lease.ended_of_gone (by simp [hf]), ite_self]

/-- A grant by the scan of a drain end is one of a waiter, from the state before the access ended. -/
theorem grantedTo (h : UpToScan lease s u) {w : Waiter} {id : LeaseId} (hg : GrantedTo u t w id) :
    GrantedTo s t w id := by
  unfold GrantedTo GrantRecord at *
  rwa [h.generation, h.term] at hg

/-- What the Lease Engine makes of the waiters once the access has ended. -/
theorem walked (h : UpToScan lease s u) (hk : KeysUnique s.le.waiters) (ht : t = u ∨ t = u.grantScan) :
    Walked s.le.waiters u t := by
  rw [← h.waiters] at hk ⊢
  rcases ht with rfl | rfl
  · exact .stop rfl rfl rfl fun _ hw => hw
  · exact grantScan_walked hk

theorem lease_of_used (ht : t = u ∨ t = u.grantScan) {j : LeaseId}
    (hu : (u.lease j).state ≠ .free) : t.lease j = u.lease j := by
  rcases ht with rfl | rfl
  · rfl
  · exact lease_grantScan_of_ne_free u j hu

theorem lease_named (h : UpToScan lease s u) {id : LeaseId} (named : lease = some (id, (s.lease id).generation)) :
    u.lease id = (s.lease id).ended := by
  rw [h.record, if_pos named]

theorem lease_unnamed (h : UpToScan lease s u) {id : LeaseId} (unnamed : lease ≠ some (id, (s.lease id).generation)) :
    u.lease id = s.lease id := by
  rw [h.record, if_neg unnamed]

theorem waiters_sublist (h : UpToScan lease s u) (ht : t = u ∨ t = u.grantScan) : t.le.waiters.Sublist s.le.waiters := by
  rw [← h.waiters]
  rcases ht with rfl | rfl
  · exact .refl _
  · exact waiters_grantScan_sublist u

theorem boardKept (h : UpToScan lease s u) (hw : Walked s.le.waiters u t) (q : PortId) : BoardKept s t q := by
  intro tag
  rw [← h.board]
  exact hw.board q tag

theorem scanned (h : UpToScan lease s u) (hw : Walked s.le.waiters u t) (hs : t.le.waiters.Sublist s.le.waiters) :
    Scanned s t (fun _ => False) := by
  refine ⟨hs, fun id hf => ?_, fun w hm left _ => ?_⟩
  · have same := h.free hf
    rw [← same]
    exact (hw.grants id (by rw [same]; exact hf)).imp_right fun ⟨w, hm, left, hg⟩ => ⟨w, hm, left, h.grantedTo hg⟩
  · obtain ⟨id, _, hg⟩ := hw.leavers w hm left
    exact ⟨id, h.grantedTo hg⟩

end UpToScan

end Sys2Proof.Machine
end

section
/-! The end of an access whole (R135), and its completion of a running soft reset (R138, R181). -/

namespace Sys2Proof.Machine

open Sys2Proof.Safety Sys2Proof.Claims

/-! ## Step 4 (R135) -/

section Ends

variable {p : PortId} {s : State}

/-- The port's access holds the bus. -/
abbrev Rides (s : State) (p : PortId) : Prop := s.bsq.hold.map (·.port) = some p

theorem port_endBase (p : PortId) (e : AccessEnd) (s : State) (q : PortId) :
    (s.endBase p e).port q = s.toldPort p e q :=
  port_endAnswer p e s q

/-- R135: a port once its access, or another port's, has ended at the records. -/
theorem port_endRecords (p : PortId) (e : AccessEnd) (s : State) (q : PortId) :
    (s.endRecords p e).port q = { s.toldPort p e q with
      board := ((s.endRecords p e).port q).board, tombstones := ((s.endRecords p e).port q).tombstones } := by
  rw [← port_endBase]
  exact (endRecords_endWork p e s).port q

theorem bsq_endRecords (p : PortId) (e : AccessEnd) (s : State) : (s.endRecords p e).bsq = s.bsq :=
  (endRecords_endWork p e s).bsq

theorem target_endRecords (p : PortId) (e : AccessEnd) (s : State) (x : TargetId) :
    (s.endRecords p e).target x = s.target x := by
  unfold State.target
  rw [bsq_endRecords]

theorem unit_endRecords {e : AccessEnd} (hu : s.mgp.unit ≠ .softResetting) :
    (s.endRecords p e).mgp.unit ≠ .softResetting := by
  have work := endRecords_endWork p e s
  by_cases hr : ∃ r, RetireCompletes s p r
  · rw [(work.completes hr).1]
    exact HostUnit.noConfusion
  · rw [(work.mgp (not_exists.mp hr)).1]
    exact hu

/-- R25, R23: a slot once the access has ended at the records. -/
theorem region_endRecords (p : PortId) (e : AccessEnd) (s : State) (r : RegionId) :
    (s.endRecords p e).region r =
      { s.region r with state := if RetireCompletes s p r then .invalid else (s.region r).state
                        inFlight := CountAfter s p r } := by
  have work := endRecords_endWork p e s
  by_cases hr : RetireCompletes s p r
  · rw [work.retired r hr, region_endBase, if_pos hr]
  · rw [work.region r hr, region_endBase, if_neg hr]

/-- Step 4 of R135, where no soft reset waits for the bus. -/
theorem endAccess_of_unit (e : AccessEnd) (hu : Rides s p → s.mgp.unit ≠ .softResetting) :
    s.endAccess p e = (s.endRecords p e).setHold (if Rides s p then none else s.bsq.hold) := by
  rw [endAccess_eq]
  unfold State.endBus State.softResetReport
  rw [bsq_endRecords]
  by_cases hb : Rides s p
  · rw [if_pos hb, if_pos hb, if_neg fun k => unit_endRecords (hu hb) k.1]
  · rw [if_neg hb, if_neg hb, ← bsq_endRecords p e]
    rfl

/-- R135: the end of an access, where no soft reset waits for the bus. -/
theorem endAccess_ended (e : AccessEnd) (tags : TagsUnique s) (hu : Rides s p → s.mgp.unit ≠ .softResetting) :
    Ended s (s.endAccess p e) p (e.answer (s.port p).access.dir) e.fault := by
  have work := endRecords_endWork p e s
  obtain ⟨u, upTo, ends⟩ := endRecords_upToScan p e s
  have scan : s.endRecords p e = u ∨ s.endRecords p e = u.grantScan := ends.imp And.right And.right
  have walked := upTo.walked tags.1 scan
  have scanned := upTo.scanned walked (upTo.waiters_sublist scan)
  rw [endAccess_of_unit e hu]
  refine ⟨fun q => ⟨port_endRecords p e s q, upTo.boardKept walked q⟩, work.mu, region_endRecords p e s,
    work.completes, work.mgp, work.flags,
    fun id named =>
      ⟨fun held => ?held, fun draining ends => ?revoked, fun draining ends => ?freed, fun draining => ?done⟩,
    fun id unnamed used => ?others, scanned, fun none => ?undrained,
    congrArg (fun b : BusSequencer => { b with hold := if Rides s p then none else s.bsq.hold }) work.bsq,
    work.nextArrival, work.resumeScans, work.freeDraws, work.divider, work.threshold, work.limit⟩
  case held =>
    have record := (upTo.lease_named named).trans (Lease.ended_of_held held)
    exact (UpToScan.lease_of_used scan (by simp [record, held])).trans record
  case revoked =>
    have record := (upTo.lease_named named).trans
      ((Lease.ended_of_draining draining).trans (Lease.drained_of_revoked ends))
    refine ⟨(UpToScan.lease_of_used scan (by simp [record])).trans record, fun q => ?_⟩
    refine (walked.tombstones q).trans ?_
    rw [upTo.drained id ⟨named, draining⟩]
    simp [ends, eq_comm]
  case freed =>
    have record := (upTo.lease_named named).trans
      ((Lease.ended_of_draining draining).trans (Lease.drained_of_free ends))
    refine ⟨?_, fun q => ?_⟩
    · rw [← record]
      exact (walked.grants id (by rw [record]; rfl)).imp_right fun ⟨w, hw, left, hg⟩ =>
        ⟨w, hw, left, upTo.grantedTo hg⟩
    · refine (walked.tombstones q).trans ?_
      rw [upTo.drained id ⟨named, draining⟩]
      simp [ends]
  case done =>
    rcases ends with ⟨none, _⟩ | ⟨_, whole⟩
    · exact absurd ⟨named, draining⟩ (none id)
    · rw [whole]
      exact grantScan_done u
  case others =>
    have record := upTo.lease_unnamed unnamed
    exact (UpToScan.lease_of_used scan (by rw [record]; exact used)).trans record
  case undrained =>
    rcases ends with ⟨_, whole⟩ | ⟨⟨id, drained⟩, _⟩
    · rw [whole]
      obtain ⟨freeSlots, tombstones⟩ := upTo.undrained none
      exact ⟨upTo.waiters, freeSlots, upTo.slotsLow, fun q => ⟨upTo.board q, tombstones q⟩⟩
    · exact absurd drained (none id)

/-! ## The completion of a soft reset (R138, R181) -/

/-- R96: a scan grants a FREE slot once, and leaves the generation of every other. -/
theorem generation_scanWalk (ahead ws : List Waiter) (s : State) (j : LeaseId) :
    ((scanWalk ahead ws s).lease j).generation = (s.lease j).generation ∨
      ws ≠ [] ∧ (s.lease j).state = .free ∧
        ((scanWalk ahead ws s).lease j).generation = (s.lease j).generation + 1#4 := by
  induction ws generalizing ahead s with
  | nil => exact .inl rfl
  | cons w ws ih =>
    have more : ∀ {a b : Prop}, a ∨ ws ≠ [] ∧ b → a ∨ w :: ws ≠ [] ∧ b := fun h =>
      h.imp_right fun ⟨_, hb⟩ => ⟨nofun, hb⟩
    unfold scanWalk
    split
    · exact more (ih _ s)
    split
    · exact more (ih _ s)
    split
    · exact .inl rfl
    · next id hid =>
      have record := lease_grantWaiter id w s j
      by_cases hj : id = j
      · subst hj
        rw [if_pos rfl] at record
        rw [lease_scanWalk_of_ne_free _ _ _ _ (by simp [record]), record]
        exact .inr ⟨nofun, lowestFree_state hid, rfl⟩
      · rw [if_neg hj] at record
        rw [← record]
        exact more (ih ahead _)

/-- R76, R181: what the end of an access makes of the generation of a slot. -/
theorem generation_endRecords (p : PortId) (e : AccessEnd) (s : State) (j : LeaseId) :
    ((s.endRecords p e).lease j).generation = (s.lease j).generation ∨
      (∃ id : LeaseId, Drained s p id) ∧ s.le.waiters ≠ [] ∧
        ((s.lease j).state = .free ∨ (s.lease j).state = .draining ∧ (s.lease j).drainEnd = some .free) ∧
        ((s.endRecords p e).lease j).generation = (s.lease j).generation + 1#4 := by
  obtain ⟨u, upTo, ⟨_, whole⟩ | ⟨drained, whole⟩⟩ := endRecords_upToScan p e s
  · rw [whole]
    exact .inl (upTo.generation j)
  rw [whole, ← upTo.generation j, ← upTo.waiters]
  refine (generation_scanWalk [] u.le.waiters u j).imp_right fun ⟨waiting, free, next⟩ =>
    ⟨drained, waiting, ?_, next⟩
  rw [upTo.record] at free
  split at free
  · exact Lease.free_of_ended free
  · exact .inl free

/-- R22, R180: while a soft reset runs, no retirement completes. -/
theorem not_retireCompletes_of_softResetting (hu : s.mgp.unit = .softResetting) (agrees : RetireAgrees s) (r : RegionId) :
    ¬RetireCompletes s p r := fun ⟨retiring, _⟩ => by
  have unit := (agrees r).mp retiring
  rw [hu] at unit
  cases unit

theorem state_toldPort (p : PortId) (e : AccessEnd) (s : State) (q : PortId) :
    (s.toldPort p e q).access.state = if q = p then .idle else (s.port q).access.state := by
  rw [← port_endAnswer, access_endAnswer]
  by_cases h : p = q
  · rw [if_pos h, if_pos h.symm]
  · rw [if_neg h, if_neg (Ne.symm h)]

/-- R138, R180: the end of the access on the bus completes a running soft reset, where no port waits. -/
theorem endAccess_of_softResetting (e : AccessEnd) (hb : Rides s p) (hu : s.mgp.unit = .softResetting)
    (agrees : RetireAgrees s) (waits : ∀ q : PortId, (s.port q).access.state ≠ .waitingBus) :
    s.endAccess p e = ((s.endRecords p e).setHold none).completeSoftReset := by
  have unit : (s.endRecords p e).mgp.unit = .softResetting := by
    rw [((endRecords_endWork p e s).mgp (not_retireCompletes_of_softResetting hu agrees)).1]
    exact hu
  have none : ((s.endRecords p e).setHold none).noneWaiting = true := by
    simp only [State.noneWaiting, List.all_eq_true, mem_allPorts, forall_const, bne_iff_ne]
    intro q
    change ((s.endRecords p e).port q).access.state ≠ _
    rw [port_endRecords]
    change (s.toldPort p e q).access.state ≠ _
    rw [state_toldPort]
    split
    · decide
    · exact waits q
  rw [endAccess_eq]
  unfold State.endBus
  rw [bsq_endRecords, if_pos hb]
  exact if_pos ⟨unit, rfl, none⟩

/-- R181: a completion keeps the pins and the requester record of a port, and clears the rest. -/
theorem softResetPort_eq (q : PortId) {x y : Port} (requester : x.requester = y.requester)
    (standing : x.standing = y.standing) : softResetPort q x = { softResetPort q y with answer := x.answer } := by
  unfold softResetPort
  rw [requester, standing]

theorem port_completeSoftReset (s : State) (q : PortId) : s.completeSoftReset.port q = softResetPort q (s.port q) :=
  mapTable_get _ _ q

theorem target_completeSoftReset (s : State) (x : TargetId) :
    s.completeSoftReset.target x = { s.target x with state := .online, consecutive := 0 } :=
  mapTable_get _ _ x

theorem pointer_completeSoftReset (s : State) (l : Priority) : s.completeSoftReset.bsq.pointers[l] = 3 :=
  Vector.getElem_replicate l.isLt

/-- R136, R137: the answer at a port once the access of port `p` has ended. -/
theorem answer_toldPort (p : PortId) (e : AccessEnd) (s : State) :
    (s.toldPort p e p).answer =
      if (s.port p).access.orphaned then (s.port p).answer else some (e.answer (s.port p).access.dir) := by
  unfold State.toldPort Told
  rw [if_pos rfl]
  dsimp only
  split
  · rfl
  · cases e <;> rfl

theorem answer_toldPort_ne {p q : PortId} (e : AccessEnd) (s : State) (h : q ≠ p) :
    (s.toldPort p e q).answer = (s.port q).answer := by
  unfold State.toldPort
  rw [if_neg h]

section Completion

variable (e : AccessEnd) (hb : Rides s p) (hu : s.mgp.unit = .softResetting) (agrees : RetireAgrees s)
  (waits : ∀ q : PortId, (s.port q).access.state ≠ .waitingBus)
include hb hu agrees waits

/-- R138, R181: the access on the bus ends, and the soft reset completes in the same event. -/
theorem endAccess_softResetDone : SoftResetDone s (s.endAccess p e) (fun q => q = p) := by
  have work := endRecords_endWork p e s
  have none := not_retireCompletes_of_softResetting (p := p) hu agrees
  obtain ⟨unit, _⟩ := work.mgp none
  rw [endAccess_of_softResetting e hb hu agrees waits]
  refine ⟨fun id => ⟨?free, ?generation⟩, rfl, rfl, rfl, work.resumeScans, work.freeDraws, fun q => ?port,
    fun r => ?region, ?mu, fun x => ?target, pointer_completeSoftReset _, rfl, ?busTimeout, work.threshold, work.limit,
    work.divider, ?mgp, ?raised, fun ev h1 h2 => ?flags⟩
  case free =>
    rw [lease_completeSoftReset]
    rfl
  case generation =>
    rw [lease_completeSoftReset]
    exact (generation_endRecords p e s id).imp_right fun ⟨drained, rest⟩ => ⟨⟨p, rfl, drained⟩, rest⟩
  case port =>
    rw [port_completeSoftReset]
    change softResetPort q ((s.endRecords p e).port q) = _
    exact softResetPort_eq q (by rw [port_endRecords, toldPort_frame]) (by rw [port_endRecords, toldPort_frame])
  case region =>
    rw [region_completeSoftReset]
    change { (s.endRecords p e).region r with inFlight := 0 } = _
    rw [region_endRecords, if_neg (none r)]
  case mu =>
    exact congrArg (fun m : MapUnit => { m with
      regions := mapTable m.regions fun _ r => { r with inFlight := 0 } }) work.mu
  case target =>
    rw [target_completeSoftReset]
    exact congrArg (fun t : Target => { t with state := .online, consecutive := 0 }) (target_endRecords p e s x)
  case busTimeout =>
    change (s.endRecords p e).bsq.busTimeout = _
    rw [bsq_endRecords]
  case mgp =>
    exact congrArg (fun m : Management => { m with
      hostStatus := { code := 13#4, result := .ok }, unit := .idle
      flags := (s.endRecords p e).mgp.flags ||| Event.cmdDone.mask }) unit
  case raised =>
    unfold State.completeSoftReset
    rw [flagged_finish]
    exact Bool.or_true _
  case flags =>
    unfold State.completeSoftReset
    rw [flagged_finish, mask_getLsbD_ne h1, Bool.or_false]
    exact work.flags ev h1 h2

theorem answer_endAccess_of_softResetting (q : PortId) :
    ((s.endAccess p e).port q).answer = (s.toldPort p e q).answer := by
  rw [endAccess_of_softResetting e hb hu agrees waits, port_completeSoftReset]
  change ((s.endRecords p e).port q).answer = _
  rw [port_endRecords]

/-- R135, R138, R181: the end of the access on the bus while a soft reset runs, with the answers. -/
theorem endAccess_completesSoftReset :
    SoftResetDone s (s.endAccess p e) (fun q => q = p) ∧
    (∀ q : PortId, q ≠ p → ((s.endAccess p e).port q).answer = (s.port q).answer) ∧
    ((s.endAccess p e).port p).answer =
      if (s.port p).access.orphaned then (s.port p).answer else some (e.answer (s.port p).access.dir) := by
  have answer := answer_endAccess_of_softResetting e hb hu agrees waits
  exact ⟨endAccess_softResetDone e hb hu agrees waits, fun q hq => (answer q).trans (answer_toldPort_ne e s hq),
    (answer p).trans (answer_toldPort p e s)⟩

end Completion

end Ends

end Sys2Proof.Machine
end

section
/-! The device cycles of the bus (R118 to R130): the grant decision, the completion of a cycle and its timeout. -/

namespace Sys2Proof.Machine

open Sys2Proof.Safety Sys2Proof.Claims

/-- Settles O27: the decision by whether one is made, and by the target of the port picked. -/
theorem busGrantDecision : Obligations.BusGrantDecision := by
  intro s l p
  refine ⟨fun h => congrArg Host.Outcome.next ?_, fun hb picked => ?_⟩
  · rcases h with held | none
    · exact grantDecision_of_held held
    · exact grantDecision_of_none_waiting none
  have decided := grantDecision_of_picked hb picked
  refine ⟨fun online => congrArg _ (decided.trans (if_neg (by simp [online]))), fun faulted tags => ?_⟩
  have ended := decided.trans (if_pos faulted)
  refine ⟨_, congrArg Host.Outcome.next ended, ?_⟩
  have off : Rides (s.movePointer l p) p → (s.movePointer l p).mgp.unit ≠ .softResetting := fun h => by
    change s.bsq.hold.map _ = _ at h
    rw [hb] at h
    cases h
  exact endAccess_ended (.failed .targetFaulted) tags off

/-! ## The shared device bus (R118, R123, R124) -/

theorem selected_of_free {s : State} (h : s.bsq.hold = none) : s.selected = none := congrArg (Option.map _) h

theorem deviceBus_of_free {s : State} (h : s.bsq.hold = none) : s.deviceBus = none := congrArg (Option.map _) h

/-- The lanes of a transfer are those of the bytes from its address up. -/
theorem transferEnables_getLsbD (x : Word) (n : Nat) (i : Fin 4) :
    (transferEnables x n).getLsbD i.val = decide (x.toNat % 4 ≤ i.val ∧ i.val < x.toNat % 4 + n) := by
  unfold transferEnables
  rw [BitVec.getLsbD_ofNat, Nat.testBit_mul_two_pow, Nat.testBit_two_pow_sub_one, Bool.eq_iff_iff]
  simp only [Bool.and_eq_true, decide_eq_true_eq]
  omega

/-- R123: whether the cycle in progress is the last of its access. -/
theorem cycleCount_le_iff {w done : Nat} {width : PortWidth} :
    cycleCount w width ≤ done + 1 ↔ w ≤ width.bytes ∨ w / width.bytes ≤ done + 1 := by
  unfold cycleCount
  split <;> omega

/-! ## The completion of a cycle (R126) -/

/-- R126: the cycle on the bus is counted, and its target's consecutive count cleared. -/
def State.countCycle (p : PortId) (s : State) : State :=
  (s.updAccess p fun a => { a with cyclesDone := a.cyclesDone + 1 }).updTarget (s.port p).access.cycle.target
    fun t => { t with consecutive := 0 }

theorem port_countCycle (p : PortId) (s : State) (q : PortId) :
    (s.countCycle p).port q =
      if p = q then { s.port q with access := { (s.port q).access with cyclesDone := (s.port q).access.cyclesDone + 1 } }
      else s.port q := by
  unfold State.countCycle
  rw [updTarget_port, port_updAccess]

theorem target_countCycle_state (p : PortId) (s : State) (x : TargetId) :
    ((s.countCycle p).target x).state = (s.target x).state := by
  unfold State.countCycle
  rw [target_updTarget]
  split <;> rfl

theorem countCycle_shed (p : PortId) (s : State) : Shed s (s.countCycle p) :=
  (updAccess_shed p _ s).trans (updTarget_shed _ _ _)

theorem state_countCycle (p : PortId) (s : State) (q : PortId) :
    ((s.countCycle p).port q).access.state = (s.port q).access.state := by
  rw [port_countCycle]
  split <;> rfl

theorem answer_countCycle (p : PortId) (s : State) (q : PortId) :
    ((s.countCycle p).port q).answer = (s.port q).answer := by
  rw [port_countCycle]
  split <;> rfl

/-- R126: the read bytes held after the cycle in progress. -/
def AccessRecord.gathered (a : AccessRecord) (sofar data : Word) : Word :=
  if a.dir = .read then gatherRead sofar data a.cycleAddr a.cycleBytes else sofar

/-- R123: the cycle in progress is the last. -/
abbrev AccessRecord.OnLast (a : AccessRecord) : Prop :=
  a.width ≤ a.cycle.width.bytes ∨ a.width / a.cycle.width.bytes ≤ a.cyclesDone + 1

/-- R126, R135: how an access ends with a cycle that is the last, or whose target is FAULTED. -/
def AccessRecord.cycleEnd (a : AccessRecord) (sofar data : Word) : AccessEnd :=
  if a.OnLast then .completed (a.gathered sofar data) else .failed .targetFaulted

section Cycle

variable {s : State} {h : BusHold} (hb : s.bsq.hold = some h)
include hb

theorem rides_of_hold : Rides s h.port := congrArg (Option.map _) hb

/-- R125, R126: what follows the cycle on the bus. -/
theorem cycleComplete_of_hold (data : Word) :
    s.cycleComplete data =
      if (s.port h.port).access.OnLast then
        (s.countCycle h.port).endAccess h.port (.completed ((s.port h.port).access.gathered h.readData data))
      else if (s.target (s.port h.port).access.cycle.target).state = .faulted then
        (s.countCycle h.port).endAccess h.port (.failed .targetFaulted)
      else (s.countCycle h.port).startCycle h.port ((s.port h.port).access.gathered h.readData data) := by
  rw [← target_countCycle_state h.port]
  unfold State.cycleComplete
  rw [hb]
  exact if_congr cycleCount_le_iff rfl rfl

/-- R126: the access ends with its last cycle, and before it where the target is FAULTED (R125). -/
theorem cycleComplete_of_end (data : Word) (ends : (s.port h.port).access.OnLast ∨
      (s.target (s.port h.port).access.cycle.target).state = .faulted) :
    s.cycleComplete data =
      (s.countCycle h.port).endAccess h.port ((s.port h.port).access.cycleEnd h.readData data) := by
  rw [cycleComplete_of_hold hb]
  unfold AccessRecord.cycleEnd
  by_cases last : (s.port h.port).access.OnLast
  · rw [if_pos last, if_pos last]
  · rw [if_neg last, if_neg last, if_pos (ends.resolve_left last)]

/-- R126: another cycle starts. -/
theorem cycleComplete_of_more (data : Word) (more : ¬(s.port h.port).access.OnLast)
    (online : (s.target (s.port h.port).access.cycle.target).state = .online) :
    s.cycleComplete data =
      (s.countCycle h.port).startCycle h.port ((s.port h.port).access.gathered h.readData data) := by
  rw [cycleComplete_of_hold hb, if_neg more, if_neg (by simp [online])]

end Cycle

/-- R136: the answer where the completion of a cycle ends the access. -/
theorem answer_cycleEnd (a : AccessRecord) (sofar data : Word) :
    (a.cycleEnd sofar data).answer a.dir =
      if a.OnLast then (if a.dir = .read then .readData (a.gathered sofar data) else .writeDone) else .busError := by
  unfold AccessRecord.cycleEnd
  split <;> rfl

theorem fault_cycleEnd (a : AccessRecord) (sofar data : Word) :
    (a.cycleEnd sofar data).fault = if a.OnLast then none else some .targetFaulted := by
  unfold AccessRecord.cycleEnd
  split <;> rfl

/-- Settles O28: the views of the bus, and the completion by whether its access ends. -/
theorem deviceCycleCompletes : Obligations.DeviceCycleCompletes := by
  intro s data
  refine ⟨fun hb => ⟨congrArg Host.Outcome.next ?_, selected_of_free hb, deviceBus_of_free hb⟩, fun h hb => ?_⟩
  · unfold State.cycleComplete
    rw [hb]
  have here : (s.countCycle h.port).port h.port = _ := (port_countCycle h.port s h.port).trans (if_pos rfl)
  have rides : Rides (s.countCycle h.port) h.port := rides_of_hold hb
  have ends := cycleComplete_of_end hb data
  have answer := answer_cycleEnd (s.port h.port).access h.readData data
  have fault := fault_cycleEnd (s.port h.port).access h.readData data
  generalize (s.port h.port).access.cycleEnd h.readData data = e at ends answer fault
  refine ⟨congrArg (Option.map _) hb, congrArg (Option.map _) hb, transferEnables_getLsbD _ _,
    fun more online => congrArg Host.Outcome.next (cycleComplete_of_more hb data more online), fun hu tags => ?_,
    fun hu agrees waits hends => ⟨_, congrArg Host.Outcome.next (ends hends), ?_⟩⟩
  · have tags' : TagsUnique (s.countCycle h.port) := (countCycle_shed h.port s).waitKept.tags tags
    have ended := endAccess_ended e tags' (p := h.port) fun _ => hu
    rw [here] at ended
    refine ⟨fun more faulted => ⟨_, congrArg Host.Outcome.next (ends (.inr faulted)), ?_⟩,
      fun last => ⟨_, congrArg Host.Outcome.next (ends (.inl last)), ?_⟩⟩
    · rw [if_neg more] at answer fault
      rw [fault] at ended
      exact answer ▸ ended
    · rw [if_pos last] at answer fault
      rw [fault] at ended
      exact answer ▸ ended
  · have waits' : ∀ q, ((s.countCycle h.port).port q).access.state ≠ .waitingBus := fun q => by
      rw [state_countCycle]
      exact waits q
    obtain ⟨done, others, own⟩ := endAccess_completesSoftReset e rides hu agrees waits'
    refine ⟨done, fun q hq => (others q hq).trans (answer_countCycle _ s q), own.trans ?_⟩
    rw [here]
    split
    · rfl
    · rw [← apply_ite some]
      exact congrArg some answer

/-! ## The timeout of a cycle (R128 to R130) -/

theorem updTarget_updTarget (s : State) (x : TargetId) (f g : Target → Target) :
    (s.updTarget x f).updTarget x g = s.updTarget x fun t => g (f t) := by
  unfold State.updTarget
  simp

theorem updTarget_raise (s : State) (x : TargetId) (f : Target → Target) (e : Event) :
    (s.raise e).updTarget x f = (s.updTarget x f).raise e := rfl

theorem raise_raise (s : State) (e f : Event) :
    (s.raise e).raise f = { s with mgp := { s.mgp with flags := s.mgp.flags ||| (e.mask ||| f.mask) } } := by
  unfold State.raise
  rw [BitVec.or_assoc]

/-- R130: one more timeout makes the target FAULTED. -/
abbrev Target.FaultsNow (t : Target) : Prop := 1 ≤ t.limit ∧ t.limit ≤ min 15 (t.consecutive + 1)

/-- R130: a timeout counted against target `x`, with its events: bit 4 is TARGET_TIMEOUT, bit 5 TARGET_FAULTED. -/
def State.withTimeout (x : TargetId) (addr : Word) (s : State) : State :=
  { s with mgp := { s.mgp with
      flags := s.mgp.flags ||| (if (s.target x).FaultsNow then 0b0000110000#10 else 0b0000010000#10) } }.updTarget x fun r =>
    { r with state := if (s.target x).FaultsNow then .faulted else r.state
             consecutive := min 15 ((s.target x).consecutive + 1), total := min 65535 (r.total + 1), lastTimeout := addr }

theorem countTimeout_eq (x : TargetId) (addr : Word) (s : State) : s.countTimeout x addr = s.withTimeout x addr := by
  have record : ((s.updTarget x fun r => r.timedOut addr).raise .targetTimeout).target x =
      (s.target x).timedOut addr := by
    rw [raise_target, target_updTarget, if_pos rfl]
  unfold State.countTimeout State.withTimeout
  dsimp only
  rw [record]
  by_cases h : (s.target x).FaultsNow
  · refine (if_pos h).trans ?_
    rw [updTarget_raise, updTarget_updTarget, raise_raise]
    simp only [if_pos h]
    rfl
  · refine (if_neg h).trans ?_
    simp only [if_neg h]
    rfl

theorem cycleTimeout_of_internal {s : State} {h : BusHold} (hb : s.bsq.hold = some h)
    (internal : (s.port h.port).access.cycle.ready = .internal) : s.cycleTimeout = s := by
  unfold State.cycleTimeout
  rw [hb]
  exact if_pos internal

theorem cycleTimeout_of_external {s : State} {h : BusHold} (hb : s.bsq.hold = some h)
    (external : (s.port h.port).access.cycle.ready = .external) :
    s.cycleTimeout =
      (s.withTimeout (s.port h.port).access.cycle.target (s.port h.port).access.cycleAddr).endAccess h.port
        (.failed .targetTimeout) := by
  rw [← countTimeout_eq]
  unfold State.cycleTimeout
  rw [hb]
  exact if_neg (by simp [external])

/-- Settles O29: the timeout counted, and the end of the access after it. -/
theorem cycleTimeoutCountsAgainstTheTarget : Obligations.CycleTimeoutCountsAgainstTheTarget := by
  intro s
  refine ⟨fun hb => congrArg Host.Outcome.next ?_, fun h hb => ?_⟩
  · unfold State.cycleTimeout
    rw [hb]
  have timedOut := cycleTimeout_of_external hb
  refine ⟨fun internal => congrArg Host.Outcome.next (cycleTimeout_of_internal hb internal),
    fun external hu tags => ⟨_, congrArg Host.Outcome.next (timedOut external), ?_⟩,
    fun external hu agrees waits => ⟨_, congrArg Host.Outcome.next (timedOut external), ?_⟩⟩
  · exact endAccess_ended (.failed .targetTimeout) tags fun _ => hu
  · exact endAccess_completesSoftReset (.failed .targetTimeout) (rides_of_hold hb) hu agrees waits

end Sys2Proof.Machine
end

section
/-! The clearing of a requester at LE (R75, R92): what it makes of each slot, the Wait List and the other ports, and the one grant
scan that follows it; then the two events that bring it, the assertion of a reset line (R152) and PORT_OFFLINE (R155). -/

namespace Sys2Proof.Machine

open Sys2Proof.Safety Sys2Proof.Claims

/-! ## One slot (R75) -/

/-- R75: a lease drains once it is cleared: it drains already, or it is HELD with an access in flight. -/
abbrev Lease.DrainsCleared (l : Lease) : Prop := l.state = .draining ∨ (l.state = .held ∧ l.inFlight = true)

/-- R75: the record that the SILENT clearing makes of a slot in use. -/
def Lease.silenced (l : Lease) : Lease :=
  if l.DrainsCleared then { l with state := .draining, reason := some .silent, drainEnd := some .free }
  else Lease.freeWith l.generation

theorem silenced_of_drains {l : Lease} (h : l.DrainsCleared) :
    l.silenced = { l with state := .draining, reason := some .silent, drainEnd := some .free } := if_pos h

theorem silenced_of_not_drains {l : Lease} (h : ¬l.DrainsCleared) : l.silenced = Lease.freeWith l.generation := if_neg h

theorem silenced_generation (l : Lease) : l.silenced.generation = l.generation := by
  unfold Lease.silenced
  split <;> rfl

theorem silenced_state (l : Lease) : l.silenced.state = if l.DrainsCleared then .draining else .free := by
  unfold Lease.silenced
  split <;> rfl

/-- R75: the slots that the clearing of requester `p` changes. -/
abbrev Lease.ClearedFor (p : PortId) (l : Lease) : Prop := l.holder = p ∧ l.state ≠ .free

/-- R75: clearing a slot writes one record, or nothing. -/
theorem clearSlot_eq (p : PortId) (id : LeaseId) (s : State) :
    s.clearSlot p id =
      if (s.lease id).ClearedFor p then s.putLease id (s.lease id).silenced else s := by
  unfold State.clearSlot
  dsimp only
  by_cases hp : (s.lease id).holder = p
  · rw [if_neg (not_not_intro hp)]
    split
    · next hs => rw [if_neg fun k => k.2 hs]
    · next hs =>
      rw [if_pos ⟨hp, by simp [hs]⟩]
      unfold State.revoke State.freeLease
      cases hf : (s.lease id).inFlight with
      | true =>
        rw [silenced_of_drains (.inr ⟨hs, hf⟩)]
        simp [hs, hf]
      | false =>
        rw [silenced_of_not_drains (by simp [hs, hf])]
        simp [hs, hf]
    · next hs =>
      rw [if_pos ⟨hp, by simp [hs]⟩, silenced_of_drains (.inl hs), ← hs]
    · next hs =>
      rw [if_pos ⟨hp, by simp [hs]⟩, silenced_of_not_drains (by simp [hs])]
      rfl
  · rw [if_pos hp, if_neg fun k => hp k.1]

theorem lease_clearSlot (p : PortId) (id : LeaseId) (s : State) (j : LeaseId) :
    (s.clearSlot p id).lease j = if id = j ∧ (s.lease j).ClearedFor p then (s.lease j).silenced else s.lease j := by
  rw [clearSlot_eq]
  by_cases hc : (s.lease id).ClearedFor p
  · rw [if_pos hc, lease_putLease]
    by_cases e : id = j
    · subst e
      rw [if_pos rfl, if_pos ⟨rfl, hc⟩]
    · rw [if_neg e, if_neg fun k => e k.1]
  · rw [if_neg hc, if_neg]
    rintro ⟨rfl, k⟩
    exact hc k

/-- R149: clearing a slot of requester `p` leaves the ports of the others. -/
theorem port_clearSlot_ne {p q : PortId} (h : q ≠ p) (id : LeaseId) (s : State) : (s.clearSlot p id).port q = s.port q := by
  rw [clearSlot_eq]
  split
  · next hc =>
    obtain ⟨holder, _⟩ := hc
    have notMade : (s.lease id).silenced.state ≠ .revoked := by
      rw [silenced_state]
      split <;> decide
    simp [port_putLease, holder, h.symm, notMade]
  · rfl

/-! ## The clearing up to its scan -/

/-- R75, R92: the slots of requester `p` are cleared and its waiters removed, the scan still to come. -/
def State.beginClear (p : PortId) (s : State) : State :=
  (allLeases.foldl (fun s id => s.clearSlot p id) s).removeWaiters fun w => w.requester == p

theorem clearRequest_eq (p : PortId) (s : State) : s.clearRequest p = s.settle (s.beginClear p) := rfl

theorem lease_foldl_clearSlot (p : PortId) (j : LeaseId) {l : List LeaseId} (hn : l.Nodup) (s : State) :
    (l.foldl (fun s id => s.clearSlot p id) s).lease j =
      if j ∈ l ∧ (s.lease j).ClearedFor p then (s.lease j).silenced else s.lease j := by
  induction l generalizing s with
  | nil => simp
  | cons id l ih =>
    obtain ⟨hid, hn⟩ := List.nodup_cons.mp hn
    rw [List.foldl_cons, ih hn, lease_clearSlot]
    by_cases e : id = j
    · subst e
      simp [hid]
    · simp [e, Ne.symm e]

theorem lease_beginClear (p : PortId) (s : State) (id : LeaseId) :
    (s.beginClear p).lease id = if (s.lease id).ClearedFor p then (s.lease id).silenced else s.lease id := by
  rw [State.beginClear, removeWaiters_lease, lease_foldl_clearSlot (l := allLeases) p id (List.nodup_finRange 64)]
  simp only [mem_allLeases, true_and]

/-- What every write of a lease record leaves, the clearing of the slots leaves. -/
theorem foldl_clearSlot_keeps {α : Type} (part : State → α) (p : PortId) (h : ∀ id s, part (s.clearSlot p id) = part s)
    (s : State) : part (allLeases.foldl (fun s id => s.clearSlot p id) s) = part s := by
  generalize allLeases = l
  induction l generalizing s with
  | nil => rfl
  | cons id l ih => exact (ih _).trans (h id s)

/-- A part of the state that no write of a lease record and no change of the Wait List reaches. -/
theorem beginClear_keeps {α : Type} (part : State → α) {p : PortId} (h : ∀ id s, part (s.clearSlot p id) = part s)
    (hw : ∀ out s, part (s.removeWaiters out) = part s) (s : State) : part (s.beginClear p) = part s :=
  (hw _ _).trans (foldl_clearSlot_keeps part p h s)

theorem waiters_clearSlot (p : PortId) (id : LeaseId) (s : State) : (s.clearSlot p id).le.waiters = s.le.waiters := by
  rw [clearSlot_eq]
  split
  · exact waiters_putLease _ _ _
  · rfl

theorem mgp_clearSlot (p : PortId) (id : LeaseId) (s : State) : (s.clearSlot p id).mgp = s.mgp := by
  rw [clearSlot_eq]
  split
  · exact mgp_putLease _ _ _
  · rfl

theorem waiters_beginClear (p : PortId) (s : State) :
    (s.beginClear p).le.waiters = s.le.waiters.filter fun w => !(w.requester == p) := by
  rw [State.beginClear, removeWaiters_le_waiters,
    foldl_clearSlot_keeps (·.le.waiters) p (waiters_clearSlot p)]

theorem mgp_beginClear (p : PortId) (s : State) : (s.beginClear p).mgp = s.mgp :=
  beginClear_keeps (·.mgp) (mgp_clearSlot p) (fun _ _ => rfl) s

theorem port_beginClear_ne {p q : PortId} (h : q ≠ p) (s : State) : (s.beginClear p).port q = s.port q :=
  beginClear_keeps (·.port q) (port_clearSlot_ne h) (fun _ _ => rfl) s

theorem mem_waiters_beginClear {p : PortId} {s : State} {w : Waiter} :
    w ∈ (s.beginClear p).le.waiters ↔ w ∈ s.le.waiters ∧ w.requester ≠ p := by
  rw [waiters_beginClear]
  simp

theorem beginClear_leaseWork (p : PortId) (s : State) : LeaseWork s (s.beginClear p) :=
  (LeaseWork.foldl _ (fun s id => clearSlot_leaseWork p id s) _ s).trans (removeWaiters_leaseWork _ _)

theorem generation_beginClear (p : PortId) (s : State) (id : LeaseId) :
    ((s.beginClear p).lease id).generation = (s.lease id).generation := by
  rw [lease_beginClear]
  split
  · exact silenced_generation _
  · rfl

theorem lease_beginClear_of_free (p : PortId) {s : State} {id : LeaseId} (h : (s.lease id).state = .free) :
    (s.beginClear p).lease id = s.lease id := by
  rw [lease_beginClear, if_neg fun k => k.2 h]

/-- R75: a slot that is freed: a tombstone, or a HELD lease with no access in flight. -/
abbrev Lease.FreesCleared (l : Lease) : Prop := l.state = .revoked ∨ (l.state = .held ∧ l.inFlight = false)

theorem not_drains_of_frees {l : Lease} (h : l.FreesCleared) : ¬l.DrainsCleared := by
  rcases h with h | ⟨h, hf⟩
  · simp [h]
  · simp [hf, h]

theorem lease_beginClear_of_drains {p : PortId} {s : State} {id : LeaseId} (hp : (s.lease id).holder = p)
    (h : (s.lease id).DrainsCleared) :
    (s.beginClear p).lease id = { s.lease id with state := .draining, reason := some .silent, drainEnd := some .free } := by
  have used : (s.lease id).state ≠ .free := by rcases h with h | ⟨h, _⟩ <;> simp [h]
  rw [lease_beginClear, if_pos ⟨hp, used⟩, silenced_of_drains h]

theorem lease_beginClear_of_frees {p : PortId} {s : State} {id : LeaseId} (hp : (s.lease id).holder = p)
    (h : (s.lease id).FreesCleared) : (s.beginClear p).lease id = Lease.freeWith (s.lease id).generation := by
  have used : (s.lease id).state ≠ .free := by rcases h with h | ⟨h, _⟩ <;> simp [h]
  rw [lease_beginClear, if_pos ⟨hp, used⟩, silenced_of_not_drains (not_drains_of_frees h)]

/-- R94: a clearing that frees a slot, or removes a waiter, calls for a scan. -/
theorem scanDue_beginClear {p : PortId} {s : State}
    (h : (∃ id : LeaseId, (s.lease id).holder = p ∧ (s.lease id).FreesCleared) ∨ ∃ w ∈ s.le.waiters, w.requester = p) :
    scanDue s (s.beginClear p) = true := by
  unfold scanDue
  rw [Bool.or_eq_true]
  rcases h with ⟨id, hp, frees⟩ | ⟨w, hw, hp⟩
  · refine .inr (any_allLeases.mpr ⟨id, ?_⟩)
    rw [lease_beginClear_of_frees hp frees]
    rcases frees with h | ⟨h, _⟩ <;> simp [slotTriggers, h, Lease.freeWith]
  · have fewer : (s.beginClear p).le.waiters.length < s.le.waiters.length := by
      rw [waiters_beginClear]
      exact List.length_filter_lt_length_iff_exists.mpr ⟨w, hw, by simp [hp]⟩
    exact .inl (bne_iff_ne.mpr fewer.ne')

/-! ## The clearing whole -/

/-- Slots in use after the clearing keep their record through its scan. -/
theorem lease_clearRequest {p : PortId} {s : State} {id : LeaseId} (h : ((s.beginClear p).lease id).state ≠ .free) :
    (s.clearRequest p).lease id = (s.beginClear p).lease id :=
  lease_settle_of_ne_free s _ id h

theorem waiters_clearRequest_sublist (p : PortId) (s : State) : (s.clearRequest p).le.waiters.Sublist s.le.waiters := by
  refine (waiters_settle_sublist s (s.beginClear p)).trans ?_
  rw [waiters_beginClear]
  exact List.filter_sublist

theorem clearRequest_walked {p : PortId} {s : State} (hk : KeysUnique s.le.waiters) :
    Walked (s.beginClear p).le.waiters (s.beginClear p) (s.clearRequest p) := by
  refine settle_walked s ?_
  rw [waiters_beginClear]
  exact hk.sublist List.filter_sublist

/-- R75, R92: only SLOTS_LOW can be raised by the scan of a clearing. -/
theorem flagged_clearRequest {p : PortId} {s : State} (hk : KeysUnique s.le.waiters) {e : Event} (he : e ≠ .slotsLow) :
    (s.clearRequest p).flagged e = s.flagged e := by
  rw [(clearRequest_walked hk).flags e he, State.flagged, mgp_beginClear]
  rfl

/-- R75: the scan of a clearing, where it frees a slot or removes a waiter, leaves nothing it could grant. -/
theorem clearRequest_done {p : PortId} {s : State}
    (h : (∃ id : LeaseId, (s.lease id).holder = p ∧ (s.lease id).FreesCleared) ∨ ∃ w ∈ s.le.waiters, w.requester = p) :
    ScanDone (s.clearRequest p) := by
  rw [clearRequest_eq, settle_of_due (scanDue_beginClear h)]
  exact grantScan_done _

section Cleared

variable {s t : State} {p : PortId} (hk : KeysUnique s.le.waiters) (hle : t.le = (s.clearRequest p).le)
  (hmu : t.mu = s.mu) (others : ∀ q : PortId, q ≠ p → t.port q = (s.clearRequest p).port q)

include hle in
theorem lease_of_clearRequest (id : LeaseId) : t.lease id = (s.clearRequest p).lease id := by
  unfold State.lease
  rw [hle]

include hle others in
/-- A grant by the scan of a clearing is one of another requester's waiter, from the state before it. -/
theorem grantedTo_of_beginClear {w : Waiter} {id : LeaseId} (hw : w ∈ (s.beginClear p).le.waiters)
    (h : GrantedTo (s.beginClear p) (s.clearRequest p) w id) : GrantedTo s t w id := by
  obtain ⟨hl, hb⟩ := h
  have generation := generation_beginClear p s id
  have region := (beginClear_leaseWork p s).region w.region
  have record : GrantRecord (s.beginClear p) w id = GrantRecord s w id := by
    unfold GrantRecord
    rw [generation, region]
  refine ⟨((lease_of_clearRequest hle id).trans hl).trans record, ?_⟩
  rw [others _ (mem_waiters_beginClear.mp hw).2, hb, generation]

include hk hle others

/-- R75: a slot that is FREE for the scan of a clearing stays so, or is granted. -/
theorem free_clearRequest {id : LeaseId} (h : ((s.beginClear p).lease id).state = .free) :
    t.lease id = (s.beginClear p).lease id ∨ Granted s t id := by
  rw [lease_of_clearRequest hle]
  refine ((clearRequest_walked hk).grants id h).imp_right fun ⟨w, hw, left, hg⟩ => ?_
  exact ⟨w, (mem_waiters_beginClear.mp hw).1, left_of_eq hle left, grantedTo_of_beginClear hle others hw hg⟩

theorem scanned_clearRequest : Scanned s t (fun w => w.requester = p) := by
  refine ⟨hle ▸ waiters_clearRequest_sublist p s, fun id hf => ?_, fun w hw left hne => ?_⟩
  · have same := lease_beginClear_of_free p hf
    have after := free_clearRequest hk hle others (id := id) (by rw [same, hf])
    rwa [same] at after
  · have stays := mem_waiters_beginClear.mpr ⟨hw, hne⟩
    obtain ⟨id, _, hg⟩ := (clearRequest_walked hk).leavers w stays (left_of_eq hle.symm left)
    exact ⟨id, grantedTo_of_beginClear hle others stays hg⟩

/-- R75: a port of another requester keeps everything but notices to its waiters. -/
theorem portKept_clearRequest {q : PortId} (hq : q ≠ p) : PortKept s t q := by
  have walked := clearRequest_walked (p := p) hk
  refine ⟨?_, fun tag => ?_⟩
  · have port := (clearRequest_leaseWork p s).port q
    have tombstones : ((s.clearRequest p).port q).tombstones = (s.port q).tombstones := by
      rw [walked.tombstones, port_beginClear_ne hq]
    rw [tombstones, ← others q hq] at port
    exact port
  · rw [others q hq]
    refine (walked.board q tag).imp (fun same => ?_) fun ⟨w, hw, hr, ht, left⟩ => ?_
    · rw [same, port_beginClear_ne hq]
    · exact ⟨w, (mem_waiters_beginClear.mp hw).1, hr, ht, left_of_eq hle left⟩

include hmu

/-- R75, R92: what a clearing leaves, with its own port cleared in whatever way after it. -/
theorem cleared_of_clearRequest : Cleared s t p := by
  have lease := lease_of_clearRequest (s := s) (p := p) hle
  refine ⟨fun id hp => ⟨fun drains => ?_, fun frees => ?_⟩, fun w hw => ?_, fun id hp used => ?_,
    scanned_clearRequest hk hle others, fun h => ?_, fun q => portKept_clearRequest hk hle others⟩
  · have cleared := lease_beginClear_of_drains hp drains
    rw [lease, lease_clearRequest (by rw [cleared]; exact fun k => nomatch k), cleared]
  · have cleared := lease_beginClear_of_frees hp frees
    have after := free_clearRequest hk hle others (id := id) (by rw [cleared]; rfl)
    rwa [cleared] at after
  · rw [hle] at hw
    exact requester_ne_of_mem_clearRequest hw
  · have same : (s.beginClear p).lease id = s.lease id := by rw [lease_beginClear, if_neg fun k => hp k.1]
    rw [lease, lease_clearRequest (by rw [same]; exact used), same]
  · refine scanDone_of_eq hle (fun w _ => ?_) (clearRequest_done h)
    rw [(clearRequest_leaseWork p s).region]
    unfold State.region
    rw [hmu]

end Cleared

/-! ## The records of the port -/

/-- R152 step 4, R155: a port with its records cleared. -/
def Port.cleared (q : Port) : Port :=
  { q with
    requester := { q.requester with faults := 0 }
    board := #v[none, none, none, none], tombstones := 0
    mailbox := { result := 0#32, data := #v[0#32, 0#32, 0#32], valid := false, overrun := false }
    request := #v[0#32, 0#32, 0#32, 0#32]
    lastFault := { reason := none, addr := 0#32, dir := .read, width := 0 } }

theorem port_clearPort (p : PortId) (s : State) (q : PortId) :
    (s.clearPort p).port q = if p = q then (s.port q).cleared else s.port q :=
  port_updPort s p _ q

/-- What an operation of LE does to a port is lost as its records are cleared. -/
theorem LeaseWork.port_cleared {s t : State} (h : LeaseWork s t) (p : PortId) :
    (t.port p).cleared = (s.port p).cleared := by
  rw [h.port p]
  rfl

/-- R151: a cleared port raises no notice line. -/
theorem ntf_cleared (q : Port) : q.cleared.ntf = false := rfl

/-! ## Assertion and deassertion of a reset line (R152, R153) -/

theorem port_enterReset (p : PortId) (s : State) (q : PortId) :
    (s.enterReset p).port q =
      if p = q then
        { s.port q with
          requester := { (s.port q).requester with inReset := true }
          access := { (s.port q).access with
            orphaned := (s.port q).access.orphaned || (s.port q).access.state != .idle } }
      else s.port q :=
  port_updPort s p _ q

/-- A change of one port before the clearing of its requester is no part of what the clearing says. -/
theorem cleared_of_updPort {s t : State} {p : PortId} {f : Port → Port} (h : Cleared (s.updPort p f) t p) :
    Cleared s t p := by
  obtain ⟨own, waiters, leases, scanned, done, ports⟩ := h
  refine ⟨own, waiters, leases, scanned, done, fun q hq => ?_⟩
  have port : (s.updPort p f).port q = s.port q := port_updPort_ne s f hq.symm
  obtain ⟨kept, board⟩ := ports q hq
  exact ⟨port ▸ kept, boardKept_of_start (v := s.updPort p f) rfl (by rw [port]) board⟩

/-- R75, R92: what a clearing leaves between two changes of its requester's own port. -/
theorem cleared_of_portEvent {s t : State} {p : PortId} (f : Port → Port) (hk : KeysUnique s.le.waiters)
    (hle : t.le = ((s.updPort p f).clearRequest p).le) (hmu : t.mu = ((s.updPort p f).clearRequest p).mu)
    (hptc : t.ptc = (((s.updPort p f).clearRequest p).clearPort p).ptc) : Cleared s t p := by
  have keys : KeysUnique (s.updPort p f).le.waiters := hk
  refine cleared_of_updPort (cleared_of_clearRequest keys hle ?_ fun q hq => ?_)
  · exact hmu.trans (clearRequest_leaseWork p (s.updPort p f)).mu
  · have port : t.port q = (((s.updPort p f).clearRequest p).clearPort p).port q := by
      unfold State.port
      rw [hptc]
    rw [port, port_clearPort, if_neg hq.symm]

/-- R152: what the assertion leaves at LE and the other ports. -/
theorem assertReset_cleared {s : State} (p : PortId) (hk : KeysUnique s.le.waiters) : Cleared s (s.assertReset p) p :=
  cleared_of_portEvent _ hk rfl rfl rfl

theorem assertReset_quiet {s : State} (p : PortId) (hk : KeysUnique s.le.waiters) :
    Quiet s (s.assertReset p) [.slotsLow] := by
  have entered : KeysUnique (s.enterReset p).le.waiters := hk
  refine ⟨?_, fun e he => flagged_clearRequest entered (by simpa using he)⟩
  exact congrArg (State.clearPort p) (clearRequest_leaseWork p (s.enterReset p)).eq

theorem port_assertReset (p : PortId) (s : State) : (s.assertReset p).port p = ((s.enterReset p).port p).cleared := by
  rw [State.assertReset, port_clearPort, if_pos rfl, (clearRequest_leaseWork p _).port_cleared]

/-- R153: the deassertion with nothing standing, or with a record that is not IDLE. -/
theorem deassertReset_of_none_taken {s : State} {p : PortId}
    (h : (s.port p).standing = none ∨ (s.port p).access.state ≠ .idle) :
    s.deassertReset p = s.updRequester p fun q => { q with inReset := false } := by
  unfold State.deassertReset
  rcases h with h | h
  · exact takeStanding_of_none (by simp [h])
  · exact takeStanding_of_busy (by simp [State.canTake, h])

/-- R153: the deassertion with an IDLE record is the arrival of what stands there. -/
theorem deassertReset_of_standing {s : State} {p : PortId} {a : Presentation} (h : (s.port p).standing = some a)
    (hi : (s.port p).access.state = .idle) :
    Host.Outcome.next (s.deassertReset p) =
      exec (.accessArrival p a) ((s.updRequester p fun q => { q with inReset := false }).updPort p
        fun q => { q with standing := none }) := by
  have idle : ((s.updRequester p fun q => { q with inReset := false }).port p).access.state = .idle := by simp [hi]
  have out : ((s.updRequester p fun q => { q with inReset := false }).port p).requester.inReset = false := by simp
  rw [arrival_of_ready (ready_of_standing idle out)]
  exact congrArg Host.Outcome.next (takeStanding_of_some (by simp [h]) (canTake_iff.mpr ⟨idle, out⟩))

/-- Settles O7: the clearing at LE between the two changes of the port, and the deassertion by whether the port takes what
stands there. -/
theorem requesterResetClearsTheRequester : Obligations.RequesterResetClearsTheRequester := by
  intro s p
  refine ⟨fun hunique => ⟨s.assertReset p, rfl, ?_, ?_, assertReset_cleared p hunique.1, assertReset_quiet p hunique.1⟩,
    fun h => congrArg Host.Outcome.next (deassertReset_of_none_taken h), fun a h hi => deassertReset_of_standing h hi⟩
  · rw [port_assertReset, port_enterReset, if_pos rfl]
    rfl
  · rw [port_assertReset]
    exact ntf_cleared _

/-! ## PORT_OFFLINE (R155) -/

/-- R155: an ONLINE or QUARANTINED requester is taken out of service. -/
def State.takeOffline (p : PortId) (s : State) : State := ((s.setRequester p .offline).clearRequest p).clearPort p

theorem port_takeOffline (p : PortId) (s : State) :
    (s.takeOffline p).port p =
      Port.cleared { s.port p with requester := { (s.port p).requester with state := .offline } } := by
  have offline : (s.setRequester p .offline).port p =
      { s.port p with requester := { (s.port p).requester with state := .offline } } := port_updPort_self s p _
  rw [State.takeOffline, port_clearPort, if_pos rfl, (clearRequest_leaseWork p _).port_cleared, offline]

/-- R155, R178: what PORT_OFFLINE leaves, LE and the other ports, once it has completed. -/
theorem finish_takeOffline_cleared {s : State} (p : PortId) (hk : KeysUnique s.le.waiters) (code : BitVec 4)
    (result : HostResult) : Cleared s ((s.takeOffline p).finish code result) p :=
  cleared_of_portEvent (fun q => { q with requester := { q.requester with state := .offline } }) hk rfl rfl rfl

theorem finish_takeOffline_quiet {s : State} (p : PortId) (hk : KeysUnique s.le.waiters) (code : BitVec 4)
    (result : HostResult) : Quiet (s.finish code result) ((s.takeOffline p).finish code result) [.slotsLow] := by
  have offline : KeysUnique (s.setRequester p .offline).le.waiters := hk
  refine ⟨?_, fun e he => ?_⟩
  · exact congrArg (fun u : State => (u.clearPort p).finish code result)
      (clearRequest_leaseWork p (s.setRequester p .offline)).eq
  · have kept : (s.takeOffline p).flagged e = s.flagged e := flagged_clearRequest offline (by simpa using he)
    rw [flagged_finish, flagged_finish, kept]

/-- Settles O40, by the requester's state. -/
theorem portOfflineClearsTheRequester : Obligations.PortOfflineClearsTheRequester := by
  intro s p hu hp
  have taken : exec .portOffline s = .next ((s.takeCode 9#4).hostPortOffline s.mgp.hostArg) :=
    congrArg _ (hostCommand_of_idle hu 9#4)
  rw [taken]
  unfold State.hostPortOffline
  rw [argFin_of_eq hp]
  dsimp only
  refine ⟨fun h => ?_, fun h hunique => ?_⟩
  · have wrong : ¬((s.port p).requester.state = .online ∨ (s.port p).requester.state = .quarantined) := by
      rcases h with h | h <;> simp [h]
    exact congrArg Host.Outcome.next (if_neg wrong)
  · refine ⟨((s.takeCode 9#4).takeOffline p).finish 9#4 .ok, congrArg Host.Outcome.next (if_pos h),
      port_takeOffline p (s.takeCode 9#4), ?_, ?_⟩
    · exact finish_takeOffline_cleared (s := s.takeCode 9#4) p hunique.1 9#4 .ok
    · exact finish_takeOffline_quiet (s := s.takeCode 9#4) p hunique.1 9#4 .ok

end Sys2Proof.Machine
end

section
/-! The command window (R143 to R150, R186): its reads and the writes without effect, the rows of its commands as accesses, and
the records of PTC and MGP after a hardware reset. -/

namespace Sys2Proof.Machine

open Sys2Proof.Safety Sys2Proof.Claims

/-! ## Reset values (R141 to R151, Table 9-1) -/

/-- Settles O5: a hardware reset takes the reset value of each record, with the pins as they stand. -/
theorem hardwareResetPorts : Obligations.HardwareResetPorts := by
  intro s
  refine ⟨s.hardwareReset, rfl, rfl, rfl, rfl, fun p => mapTable_get _ _ p, ?_, ?_⟩
  · have receiver : s.mgp.receiver.atReset = if s.mgp.receiver = .high then .high else .abandoned := by
      cases s.mgp.receiver <;> rfl
    rw [← receiver]
    rfl
  · show (0#10 &&& 0#10 != 0#10) = false
    decide

/-! ## The rows of the window (R143 to R150) -/

/-- R145: the row of each lease command is the write at SUBMIT under its code. -/
theorem exec_leaseRow {code : Fin 9} (h : 1 ≤ code) (p : PortId) (be : BitVec 4) (data : Word) (s : State) :
    exec (leaseRow code p be data) s = .next (s.submitRow code.val p be data) := by
  fin_cases code
  · exact absurd h (by decide)
  all_goals rfl

/-- R145: a lease command row by the code that stands in REQUEST0 once what the port can take is taken. -/
theorem exec_leaseRow_eq {code : Fin 9} (h : 1 ≤ code) (p : PortId) (be : BitVec 4) (data : Word) (s : State) :
    exec (leaseRow code p be data) s =
      if reqCode ((s.takeStanding p).port p).request[0] = code.val then
        exec (.accessArrival p (s.windowPresentation .write 0x10 be data)) s
      else .next s := by
  rw [exec_leaseRow h]
  exact apply_ite Host.Outcome.next _ _ _

/-- Settles O12: the rows by definition, and the code a lease command row looks at by what the port takes before it. -/
theorem windowRowsAreAccesses : Obligations.WindowRowsAreAccesses := by
  intro s p k be data code
  refine ⟨rfl, rfl, rfl, rfl, fun hcode => ?_⟩
  have row := exec_leaseRow_eq hcode p be data s
  have rows : ∀ u : State, s.takeStanding p = u →
      (reqCode (u.port p).request[0] = code.val → exec (leaseRow code p be data) s =
        exec (.accessArrival p (s.windowPresentation .write 0x10 be data)) s) ∧
      (reqCode (u.port p).request[0] ≠ code.val → exec (leaseRow code p be data) s = .next s) := by
    rintro u rfl
    exact ⟨fun h => row.trans (if_pos h), fun h => row.trans (if_neg h)⟩
  refine ⟨fun h => rows s ?_, fun b u hb hi hr hu => rows u ?_⟩
  · rcases h with h | h | h
    · exact takeStanding_of_none h
    · exact takeStanding_of_busy (by simp [State.canTake, h])
    · exact takeStanding_of_busy (by simp [State.canTake, h])
  · rw [arrival_of_ready (ready_of_standing hi hr)] at hu
    exact (takeStanding_of_some hb (canTake_iff.mpr ⟨hi, hr⟩)).trans (Host.Outcome.next.inj hu)

/-! ## The words of the window (R186, Table 10-2) -/

/-- Table 10-2: what stands at word `j` of the window. -/
def wordSlot (j : Nat) : WindowSlot :=
  match j with
  | 0 => .request 0
  | 1 => .request 1
  | 2 => .request 2
  | 3 => .request 3
  | 4 => .submit
  | 8 => .result
  | 9 => .resultData 0
  | 10 => .resultData 1
  | 11 => .resultData 2
  | 12 => .portStatus
  | 13 => .faultReason
  | 14 => .faultAddr
  | 15 => .notice
  | _ => .other

theorem windowSlot_eq (m : MapUnit) (x : Word) : m.windowSlot x = wordSlot ((x - m.windowBase).toNat / 4) := rfl

theorem wordSlot_request (k : Fin 4) : wordSlot k.val = .request k := by
  fin_cases k <;> rfl

theorem wordSlot_resultData (k : Fin 3) : wordSlot (9 + k.val) = .resultData k := by
  fin_cases k <;> rfl

/-- Table 10-2: the words that name nothing. -/
theorem wordSlot_other {j : Nat} (h : (5 ≤ j ∧ j < 8) ∨ 16 ≤ j) : wordSlot j = .other := by
  unfold wordSlot
  split
  case h_14 => rfl
  all_goals omega

/-- Table 10-2: from 0x014 up there is no REQUEST word and no SUBMIT. -/
theorem wordSlot_of_le {j : Nat} (h : 5 ≤ j) : wordSlot j ≠ .submit ∧ ∀ k : Fin 4, wordSlot j ≠ .request k := by
  unfold wordSlot
  split
  case h_1 | h_2 | h_3 | h_4 | h_5 => omega
  all_goals exact ⟨nofun, nofun⟩

/-! ## Window accesses (R143) -/

section Window

variable {s : State} {p : PortId} {be : BitVec 4} {off : Nat} {w : WindowSlot} (hw : WindowAligned s)
  (hb : alignedEnables be = true) (ho : off < 4096) (h4 : off % 4 = 0) (hslot : wordSlot (off / 4) = w)

include hw hb ho h4 hslot in
theorem windowSlot_of_wordSlot : s.mu.windowSlot (s.mu.windowBase + BitVec.ofNat 32 (off + lowestLane be)) = w := by
  rw [windowSlot_eq, windowSlot_offset hw hb ho h4, hslot]

include hw hb ho h4 hslot in
/-- R30: PORT_STATUS, LAST_FAULT and NOTICE are read by any requester that is not OFFLINE. -/
theorem passes12_of_barredMayRead (hq : (s.port p).requester.state ≠ .offline) (hm : w.barredMayRead = true)
    (data : Word) : Passes12 s p (s.windowPresentation .read off be data) := by
  have hlane := (alignedEnables_spec hb).2.1
  have aligned := naturallyAligned_window hw hb ho h4 .read data
  have inside := (window_offset hw (k := off + lowestLane be) (by omega)).1
  have slot := windowSlot_of_wordSlot hw hb ho h4 hslot
  refine .inr ⟨hq, ?_⟩
  unfold State.barredException
  rw [aligned]
  unfold State.windowPresentation
  dsimp only
  rw [inside, slot, hm]
  rfl

variable (ready : Ready s p) (hu : s.mgp.unit ≠ .softResetting)

include hw hb ho h4 ready hu in
/-- R28, R29: an aligned access of the window that passes checks 1 and 2 is one at the window. -/
theorem arrival_of_passes12 {dir : Direction} {data : Word} (h : Passes12 s p (s.windowPresentation dir off be data)) :
    exec (.accessArrival p (s.windowPresentation dir off be data)) s =
      .next (s.windowAccess p (s.windowPresentation dir off be data)) := by
  have hlane := (alignedEnables_spec hb).2.1
  have aligned := naturallyAligned_iff.mp (naturallyAligned_window hw hb ho h4 dir data)
  have decoded : s.mu.decode p dir (s.mu.windowBase + BitVec.ofNat 32 (off + lowestLane be)) = .window :=
    decode_window hw (by omega) p dir
  have judged : s.judge p (s.windowPresentation dir off be data) = .window :=
    (judge_of_passes h hu aligned).trans (congrArg (s.verdictAt p _) decoded)
  rw [arrival_of_ready ready]
  unfold State.carryOut
  rw [judged]

include hw hb ho h4 hslot ready hu

/-- R143: a read of a word of the window, by its one effect and the named bytes of the word. -/
theorem read_word {data : Word} (h : Passes12 s p (s.windowPresentation .read off be data)) :
    exec (.accessArrival p (s.windowPresentation .read off be data)) s =
      .next ((s.windowRead p w).answer p (.readData (s.windowWord p w &&& laneMask be))) := by
  rw [arrival_of_passes12 hw hb ho h4 ready hu h]
  unfold State.windowAccess State.windowPresentation
  dsimp only
  rw [windowSlot_of_wordSlot hw hb ho h4 hslot]

/-- R143: a write at a word that is neither SUBMIT nor a REQUEST word is answered and discarded. -/
theorem write_word_discarded (hq : (s.port p).requester.state = .online) (hs : w ≠ .submit)
    (hr : ∀ k : Fin 4, w ≠ .request k) (data : Word) :
    exec (.accessArrival p (s.windowPresentation .write off be data)) s = .next (s.answer p .writeDone) := by
  rw [arrival_of_passes12 hw hb ho h4 ready hu (.inl hq)]
  unfold State.windowAccess State.windowPresentation
  dsimp only
  rw [windowSlot_of_wordSlot hw hb ho h4 hslot]
  cases w with
  | request k => exact absurd rfl (hr k)
  | submit => exact absurd rfl hs
  | result | resultData | portStatus | faultReason | faultAddr | notice | other => rfl

end Window

/-! ## Reads with an effect (R146, R147, R150) -/

/-- An answer after a change of the same port is one change. -/
theorem answer_updPort {s : State} {p : PortId} {f g : Port → Port} {a : Answer}
    (h : { f (s.port p) with answer := some a } = g (s.port p)) : (s.updPort p f).answer p a = s.updPort p g :=
  (updPort_updPort s p _ _).trans (updPort_congr h)

/-- R146: a RESULT read takes the result. -/
theorem answer_result (s : State) (p : PortId) (be : BitVec 4) :
    (s.windowRead p .result).answer p (.readData (s.windowWord p .result &&& laneMask be)) =
      s.updPort p fun q =>
        { q with mailbox := { q.mailbox with valid := false }
                 answer := some (.readData ((q.mailbox.result ||| placeBit q.mailbox.valid 31) &&& laneMask be)) } := by
  unfold State.windowRead
  exact answer_updPort rfl

/-- R147: a PORT_STATUS read clears OVERRUN. -/
theorem answer_portStatus (s : State) (p : PortId) (be : BitVec 4) :
    (s.windowRead p .portStatus).answer p (.readData (s.windowWord p .portStatus &&& laneMask be)) =
      s.updPort p fun q =>
        { q with mailbox := { q.mailbox with overrun := false }
                 answer := some (.readData (portStatusWord p q &&& laneMask be)) } := by
  unfold State.windowRead
  exact answer_updPort rfl

/-- A search of the tags finds the lowest that passes the test. -/
theorem find_allTags : ∀ (test : Tag → Bool) (tag : Tag), test tag = true → (∀ u : Tag, u < tag → test u = false) →
    allTags.find? test = some tag := by decide

theorem lowestNotice_eq_some {q : Port} {tag : Tag} {n : ClaimNotice} (h : q.board[tag] = some n)
    (low : ∀ u : Tag, u < tag → q.board[u] = none) : q.lowestNotice = some tag := by
  refine find_allTags _ tag ?_ fun u hu => ?_
  · rw [h]
    rfl
  · rw [low u hu]
    rfl

theorem lowestNotice_eq_none {q : Port} (h : ∀ u : Tag, q.board[u] = none) : q.lowestNotice = none := by
  unfold Port.lowestNotice
  rw [List.find?_eq_none]
  intro u _
  simp [h u]

/-- R150: a NOTICE read takes the claim notice of the lowest tag. -/
theorem answer_claimNotice {s : State} {p : PortId} {tag : Tag} {n : ClaimNotice} (h : (s.port p).board[tag] = some n)
    (low : ∀ u : Tag, u < tag → (s.port p).board[u] = none) (be : BitVec 4) :
    (s.windowRead p .notice).answer p (.readData (s.windowWord p .notice &&& laneMask be)) =
      s.updPort p fun q =>
        { q with board := q.board.set tag none
                 answer := some (.readData (claimNoticeWord tag n &&& laneMask be)) } := by
  have lowest := lowestNotice_eq_some h low
  have word : s.windowWord p .notice = claimNoticeWord tag n := by
    change s.noticeWord p = _
    unfold State.noticeWord
    rw [lowest]
    dsimp only
    rw [h]
  have taken : (s.port p).takeNotice = { s.port p with board := (s.port p).board.set tag none } := by
    unfold Port.takeNotice
    rw [lowest]
  rw [word]
  refine answer_updPort ?_
  rw [taken]

section NoClaimNotice

variable {s : State} {p : PortId} (h : ∀ u : Tag, (s.port p).board[u] = none)
include h

/-- R150: where the board holds no claim notice, a NOTICE read has no effect. -/
theorem windowRead_notice_of_none : s.windowRead p .notice = s := by
  refine updPort_eq_self ?_
  unfold Port.takeNotice
  rw [lowestNotice_eq_none h]

theorem noticeWord_of_none (ht : (s.port p).tombstones = 0) : s.noticeWord p = 0#32 := by
  unfold State.noticeWord
  rw [lowestNotice_eq_none h]
  exact if_pos ht

/-- R150: a revocation notice names the lowest tombstone. -/
theorem noticeWord_of_tombstone {id : LeaseId} (ht : 0 < (s.port p).tombstones) (hs : (s.lease id).state = .revoked)
    (hp : (s.lease id).holder = p)
    (low : ∀ j : LeaseId, j < id → ¬((s.lease j).state = .revoked ∧ (s.lease j).holder = p)) :
    s.noticeWord p = revocationWord id (s.lease id) := by
  have lowest : s.lowestTombstone p = some id :=
    find_allLeases_iff.mpr ⟨by simp [hs, hp], fun j hj => by simpa using low j hj⟩
  unfold State.noticeWord
  rw [lowestNotice_eq_none h]
  dsimp only
  rw [if_neg ht.ne', lowest]

end NoClaimNotice

/-- Settles O14: the judgement lets each access through, and the word it reaches decides. -/
theorem windowReadsAnswer : Obligations.WindowReadsAnswer := by
  intro s p be data j ready hq hu hw hb
  dsimp only
  have read : ∀ {off : Nat} (w : WindowSlot), off < 4096 → off % 4 = 0 → wordSlot (off / 4) = w →
      (s.port p).requester.state = .online ∨ w.barredMayRead = true →
      exec (.accessArrival p (s.windowPresentation .read off be 0#32)) s =
        .next ((s.windowRead p w).answer p (.readData (s.windowWord p w &&& laneMask be))) := by
    intro off w ho h4 hslot may
    refine read_word hw hb ho h4 hslot ready hu ?_
    exact may.elim .inl fun hm => passes12_of_barredMayRead hw hb ho h4 hslot hq hm _
  have notice := read (off := 0x3C) .notice (by decide) (by decide) rfl (.inr rfl)
  refine ⟨fun on => ⟨?result, fun k => ?request, fun k => ?data, fun hj => ?nothing, fun hj => ?write⟩, ?status, ?reason,
    ?addr, fun tag n h low => ?claim, fun none => ⟨fun ht => ?empty, fun id ht hs hp low => ?tombstone⟩⟩
  case result =>
    exact (read (off := 0x20) .result (by decide) (by decide) rfl (.inl on)).trans (congrArg _ (answer_result s p be))
  case request =>
    refine read (.request k) (by omega) (by omega) ?_ (.inl on)
    rw [Nat.mul_div_cancel_left k.val (by decide)]
    exact wordSlot_request k
  case data =>
    refine read (.resultData k) (by omega) (by omega) ?_ (.inl on)
    rw [show (0x24 + 4 * k.val) / 4 = 9 + k.val by omega]
    exact wordSlot_resultData k
  case nothing =>
    have word : 4 * j.val / 4 = j.val := Nat.mul_div_cancel_left j.val (by decide)
    by_cases submit : j = 4
    · exact read .submit (by omega) (by omega) (by rw [word, submit]; rfl) (.inl on)
    · refine read .other (by omega) (by omega) ?_ (.inl on)
      rw [word]
      exact wordSlot_other (hj.resolve_left submit)
  case write =>
    have word : 4 * j.val / 4 = j.val := Nat.mul_div_cancel_left j.val (by decide)
    obtain ⟨notSubmit, notRequest⟩ := wordSlot_of_le (j := j.val) hj
    exact write_word_discarded hw hb (by omega) (by omega) (by rw [word]) ready hu on notSubmit notRequest data
  case status =>
    exact (read (off := 0x30) .portStatus (by decide) (by decide) rfl (.inr rfl)).trans
      (congrArg _ (answer_portStatus s p be))
  case reason => exact read .faultReason (by decide) (by decide) rfl (.inr rfl)
  case addr => exact read .faultAddr (by decide) (by decide) rfl (.inr rfl)
  case claim => exact notice.trans (congrArg _ (answer_claimNotice h low be))
  case empty =>
    rw [windowRead_notice_of_none none] at notice
    refine notice.trans ?_
    rw [show s.windowWord p .notice = 0#32 from noticeWord_of_none none ht]
    rfl
  case tombstone =>
    rw [windowRead_notice_of_none none] at notice
    refine notice.trans ?_
    rw [show s.windowWord p .notice = revocationWord id (s.lease id) from noticeWord_of_tombstone none ht hs hp low]
    rfl

end Sys2Proof.Machine
end

section
/-! The words of the window field by field (Tables 10-3, 10-5, 10-7 and 10-8), and the values of the encodings (Tables 10-1 and
10-4). -/

namespace Sys2Proof.Machine

/-! ## Values that fit their fields -/

theorem ResultCode.code_lt (c : ResultCode) : c.code < 2 ^ 8 := by cases c <;> decide

theorem RequesterState.code_lt (x : RequesterState) : x.code < 2 ^ 2 := by cases x <;> decide

theorem DropReason.code_lt (x : DropReason) : x.code < 2 ^ 3 := by cases x <;> decide

theorem directionCode_lt (x : Direction) : directionCode x < 2 ^ 1 := by cases x <;> decide

theorem reasonCode_lt (x : Option RevokeReason) : reasonCode x < 2 ^ 3 := by
  cases x with
  | none => decide
  | some x => cases x <;> decide

theorem faultCode_lt (x : Option FaultReason) : (x.map (·.code)).getD 0 < 2 ^ 8 := by
  cases x with
  | none => decide
  | some x => cases x <;> decide

theorem tagOrZero_lt (x : Option Tag) : (x.map (·.val)).getD 0 < 2 ^ 2 := by
  cases x with
  | none => decide
  | some t => exact t.isLt

/-! ## The lease fields of RESULT and NOTICE -/

theorem leaseFields_some (id : LeaseId) (g : Generation) :
    field (leaseFields (some (id, g))) 8 6 = id.val ∧ field (leaseFields (some (id, g))) 16 4 = g.toNat := by
  unfold leaseFields
  simp (disch := omega) only [field_or, field_place_self, field_place_disjoint, Nat.or_zero, Nat.zero_or]
  exact ⟨Nat.mod_eq_of_lt id.isLt, Nat.mod_eq_of_lt g.isLt⟩

/-- A field that lies off the lease fields. -/
theorem field_leaseFields_disjoint {l : Option (LeaseId × Generation)} {lo len : Nat} (h : lo + len ≤ 8 ∨ 20 ≤ lo) :
    field (leaseFields l) lo len = 0 := by
  cases l with
  | none => exact field_zero lo len
  | some x =>
    unfold leaseFields
    simp (disch := omega) only [field_or, field_place_disjoint, Nat.or_zero]

/-! ## RESULT (Table 10-5) -/

theorem resultWord_fields (r : Reply) :
    field (resultWord r) 0 8 = r.code.code ∧ field (resultWord r) 24 3 = reasonCode r.reason ∧
    field (resultWord r) 31 1 = 0 ∧ field (resultWord r) 20 2 = (r.tag.map (·.val)).getD 0 := by
  unfold resultWord
  simp (disch := omega) only [field_or, field_place_self, field_place_disjoint, field_leaseFields_disjoint, Nat.or_zero,
    Nat.zero_or, true_and]
  exact ⟨Nat.mod_eq_of_lt r.code.code_lt, Nat.mod_eq_of_lt (reasonCode_lt _), Nat.mod_eq_of_lt (tagOrZero_lt _)⟩

theorem resultWord_lease (r : Reply) :
    field (resultWord r) 8 6 = field (leaseFields r.lease) 8 6 ∧
    field (resultWord r) 16 4 = field (leaseFields r.lease) 16 4 := by
  unfold resultWord
  simp (disch := omega) only [field_or, field_place_disjoint, Nat.or_zero, Nat.zero_or, and_self]

/-! ## NOTICE (Table 10-7) -/

theorem grantedWord_fields (tag : Tag) (id : LeaseId) (g : Generation) :
    let w := claimNoticeWord tag (.granted id g)
    field w 0 3 = 1 ∧ field w 4 2 = tag.val ∧ field w 8 6 = id.val ∧ field w 16 4 = g.toNat ∧ field w 20 3 = 0 := by
  obtain ⟨hid, hg⟩ := leaseFields_some id g
  unfold claimNoticeWord
  simp (disch := omega) only [field_or, field_place_self, field_place_disjoint, field_leaseFields_disjoint, Nat.or_zero,
    Nat.zero_or, hid, hg, and_true]
  exact ⟨rfl, Nat.mod_eq_of_lt tag.isLt⟩

theorem droppedWord_fields (tag : Tag) (x : DropReason) :
    let w := claimNoticeWord tag (.dropped x)
    field w 0 3 = 2 ∧ field w 4 2 = tag.val ∧ field w 8 6 = 0 ∧ field w 16 4 = 0 ∧ field w 20 3 = x.code := by
  unfold claimNoticeWord
  simp (disch := omega) only [field_or, field_place_self, field_place_disjoint, Nat.or_zero, Nat.zero_or, true_and]
  exact ⟨rfl, Nat.mod_eq_of_lt tag.isLt, Nat.mod_eq_of_lt x.code_lt⟩

theorem revocationWord_fields (id : LeaseId) (l : Lease) :
    let w := revocationWord id l
    field w 0 3 = 3 ∧ field w 4 2 = 0 ∧ field w 8 6 = id.val ∧ field w 16 4 = l.generation.toNat ∧
    field w 20 3 = reasonCode l.reason := by
  obtain ⟨hid, hg⟩ := leaseFields_some id l.generation
  unfold revocationWord
  simp (disch := omega) only [field_or, field_place_self, field_place_disjoint, field_leaseFields_disjoint, Nat.or_zero,
    Nat.zero_or, hid, hg, true_and]
  exact ⟨rfl, Nat.mod_eq_of_lt (reasonCode_lt _)⟩

/-! ## PORT_STATUS and LAST_FAULT (Table 10-8) -/

theorem portStatusWord_fields (p : PortId) (q : Port) :
    let w := portStatusWord p q
    field w 0 2 = p.val ∧ field w 2 2 = q.requester.state.code ∧ field w 4 1 = q.mailbox.valid.toNat ∧
    field w 5 1 = q.mailbox.overrun.toNat ∧ field w 6 1 = q.ntf.toNat ∧ field w 8 5 = q.requester.faults % 32 ∧
    field w 13 3 = q.requester.quarantines % 8 ∧ field w 16 3 = q.notices % 8 ∧
    field w 24 7 = q.tombstones % 128 := by
  unfold portStatusWord
  simp (disch := omega) only [field_or, field_place_self, field_place_disjoint, field_placeBit_self,
    field_placeBit_disjoint, Nat.or_zero, Nat.zero_or, true_and]
  exact ⟨Nat.mod_eq_of_lt p.isLt, Nat.mod_eq_of_lt (RequesterState.code_lt _), rfl, rfl, rfl, rfl⟩

/-- R151: the notice line, by what the board and the tombstone count hold. -/
theorem ntf_iff (q : Port) : q.ntf = true ↔ (∃ t : Tag, q.board[t] ≠ none) ∨ 0 < q.tombstones := by
  have held : 0 < q.notices ↔ ∃ t : Tag, q.board[t] ≠ none := by
    rw [Port.notices, List.countP_pos_iff]
    simp only [Vector.mem_toList_iff, Vector.mem_iff_getElem, ← Option.ne_none_iff_isSome, ne_eq]
    constructor
    · rintro ⟨_, ⟨i, hi, rfl⟩, h⟩
      exact ⟨⟨i, hi⟩, h⟩
    · rintro ⟨t, h⟩
      exact ⟨_, ⟨t.val, t.isLt, rfl⟩, h⟩
  unfold Port.ntf
  rw [Bool.or_eq_true, decide_eq_true_eq, decide_eq_true_eq, held]

theorem lastFaultWord_fields (f : LastFault) :
    field (lastFaultWord f) 0 8 = (f.reason.map (·.code)).getD 0 ∧ field (lastFaultWord f) 8 3 = f.width % 8 ∧
    field (lastFaultWord f) 11 1 = directionCode f.dir := by
  unfold lastFaultWord
  simp (disch := omega) only [field_or, field_place_self, field_place_disjoint, Nat.or_zero, Nat.zero_or]
  exact ⟨Nat.mod_eq_of_lt (faultCode_lt _), rfl, Nat.mod_eq_of_lt (directionCode_lt _)⟩

/-! ## REQUEST0 (Table 10-3) -/

/-- Table 10-1: the two defined values of the mode field. -/
theorem reqMode_eq_some_iff (w : Word) (m : Mode) : reqMode w = some m ↔ field w 6 2 = m.code := by
  unfold reqMode
  split
  · next h => cases m <;> simp [h, Mode.code]
  · next h => cases m <;> simp [h, Mode.code]
  · next h0 h1 => cases m <;> simp_all [Mode.code]

/-- Settles O15: word by word, and the encodings as they are listed. -/
theorem windowWordsCarryTheirFields : Obligations.WindowWordsCarryTheirFields := by
  intro r id g tag x l p q f word
  obtain ⟨code, reason, valid, tagField⟩ := resultWord_fields r
  obtain ⟨leaseId, generation⟩ := resultWord_lease r
  obtain ⟨port, state, full, overrun, ntf, faults, quarantines, notices, tombstones⟩ := portStatusWord_fields p q
  refine ⟨⟨code, reason, valid, fun h => ?_, fun h => ?_, fun h => ?_, fun h => ?_⟩, grantedWord_fields tag id g,
    droppedWord_fields tag x, revocationWord_fields id l,
    ⟨port, state, full, overrun, ntf, faults, quarantines, notices, tombstones, ntf_iff q⟩, lastFaultWord_fields f,
    ⟨rfl, rfl, reqMode_eq_some_iff word, rfl, rfl, rfl⟩, by decide, by decide, by decide, by decide⟩
  · rw [leaseId, generation, h]
    exact leaseFields_some id g
  · rw [leaseId, generation, h]
    exact ⟨field_zero 8 6, field_zero 16 4⟩
  · rw [tagField, h]
    rfl
  · rw [tagField, h]
    rfl

end Sys2Proof.Machine
end

section
/-! The requesters weighed against FAULT_CONFIG (R159, R164): the records after the write, the barring of those at the threshold
port by port, and the one grant scan after it; then PORT_ONLINE and PORT_RESTORE (R154, R166). -/

namespace Sys2Proof.Machine

open Sys2Proof.Safety Sys2Proof.Claims

/-! ## PORT_ONLINE and PORT_RESTORE (R154, R166) -/

/-- Settles O39: each command is decided by whether its argument names a port, and by the one state it asks for. -/
theorem portOnlineAndRestore : Obligations.PortOnlineAndRestore := by
  intro s hu
  have online : exec .portOnline s = .next ((s.takeCode 8#4).hostPortOnline s.mgp.hostArg) :=
    congrArg _ (hostCommand_of_idle hu 8#4)
  have restore : exec .portRestore s = .next ((s.takeCode 10#4).hostPortRestore s.mgp.hostArg) :=
    congrArg _ (hostCommand_of_idle hu 10#4)
  rw [online, restore]
  unfold State.hostPortOnline State.hostPortRestore
  refine ⟨fun hlarge => ?_, fun p hp => ?_⟩
  · rw [argFin_of_le hlarge]
    exact ⟨rfl, rfl⟩
  · rw [argFin_of_eq hp]
    dsimp only
    refine ⟨fun h => ?_, fun h => ?_, fun h => ?_, fun h => ?_⟩
    · exact congrArg Host.Outcome.next (if_pos h)
    · exact congrArg Host.Outcome.next (if_neg h)
    · exact congrArg Host.Outcome.next (if_pos h)
    · exact congrArg Host.Outcome.next (if_neg h)

/-! ## The values in force (R159, R164) -/

/-- A change made at every port of a list, each change of its own port alone, and each under a condition that all keep. -/
theorem port_foldl {g : State → PortId → State} {f : PortId → Port → Port} {C : State → Prop}
    (hC : ∀ u p, C u → C (g u p)) (hg : ∀ u p q, C u → (g u p).port q = if p = q then f q (u.port q) else u.port q)
    {l : List PortId} (hl : l.Nodup) {u : State} (hu : C u) (q : PortId) :
    (l.foldl g u).port q = if q ∈ l then f q (u.port q) else u.port q := by
  induction l generalizing u with
  | nil => simp
  | cons p l ih =>
    obtain ⟨hp, hl⟩ := List.nodup_cons.mp hl
    rw [List.foldl_cons, ih hl (hC u p hu), hg u p q hu]
    by_cases e : p = q
    · subst e
      simp [hp]
    · simp [e, Ne.symm e]

/-- R164: a requester record with its quarantine count lowered to the limit. -/
def Requester.lowered (limit : Nat) (q : Requester) : Requester := { q with quarantines := min q.quarantines limit }

/-- R164: both values in force and the quarantine counts lowered, nobody barred yet. -/
def State.withFaultConfig (threshold limit : Nat) (s : State) : State :=
  allPorts.foldl (fun s p => s.lowerQuarantine p) { s with ptc := { s.ptc with threshold := threshold, limit := limit } }

theorem port_withFaultConfig (threshold limit : Nat) (s : State) (p : PortId) :
    (s.withFaultConfig threshold limit).port p =
      { s.port p with requester := (s.port p).requester.lowered limit } := by
  have folded := port_foldl (g := fun u p => u.lowerQuarantine p)
    (f := fun _ x => { x with requester := x.requester.lowered limit }) (C := fun u => u.ptc.limit = limit)
    (fun _ _ h => h) (fun u p q h => by rw [State.lowerQuarantine, port_updRequester, h]; rfl) allPorts_nodup
    (u := { s with ptc := { s.ptc with threshold := threshold, limit := limit } }) rfl p
  rwa [if_pos (mem_allPorts p)] at folded

/-! ## The barring (R161, R164) -/

/-- R164: the requesters that `who` names take the barring, lowest port first, LE not yet asked. -/
def State.barAll (who : PortId → Bool) (s : State) : State :=
  allPorts.foldl (fun u p => if who p then u.enterBarring p else u) s

/-- Nothing but the ports and the flags differs between `s` and `t`. -/
def PortsAndFlags (s t : State) : Prop :=
  ∃ ports flags, t = { s with ptc := { s.ptc with ports := ports }, mgp := { s.mgp with flags := flags } }

theorem enterBarring_portsAndFlags (p : PortId) {s t : State} (h : PortsAndFlags s t) :
    PortsAndFlags s (t.enterBarring p) := by
  obtain ⟨ports, flags, rfl⟩ := h
  exact ⟨_, _, rfl⟩

theorem barAll_portsAndFlags (who : PortId → Bool) (s : State) : PortsAndFlags s (s.barAll who) := by
  refine List.foldlRecOn allPorts _ (motive := PortsAndFlags s) ⟨_, _, rfl⟩ fun u hu p _ => ?_
  split
  · exact enterBarring_portsAndFlags p hu
  · exact hu

theorem port_enterBarring (p : PortId) (s : State) (q : PortId) :
    (s.enterBarring p).port q =
      if p = q then { s.port q with requester := Barred s.ptc.limit (s.port q).requester } else s.port q := by
  rw [enterBarring_eq, port_barredPort]
  split
  · next e => rw [e]
  · rfl

theorem port_barAll (who : PortId → Bool) (s : State) (p : PortId) :
    (s.barAll who).port p =
      if who p then { s.port p with requester := Barred s.ptc.limit (s.port p).requester } else s.port p := by
  have folded := port_foldl (g := fun u p => if who p then u.enterBarring p else u)
    (f := fun q x => if who q then { x with requester := Barred s.ptc.limit x.requester } else x)
    (C := fun u => u.ptc.limit = s.ptc.limit) (fun u p h => ?_) (fun u p q h => ?_) allPorts_nodup (u := s) rfl p
  · rwa [if_pos (mem_allPorts p)] at folded
  · split <;> exact h
  · by_cases hp : who p = true
    · rw [if_pos hp, port_enterBarring, h]
      split
      · next e => rw [← e, if_pos hp]
      · rfl
    · rw [if_neg hp]
      split
      · next e => rw [← e, if_neg hp]
      · rfl

theorem flagged_enterBarring (p : PortId) (s : State) (e : Event) :
    (s.enterBarring p).flagged e =
      (s.flagged e || decide (e = barringEvent (Barred s.ptc.limit (s.port p).requester))) := by
  rw [enterBarring_eq, flagged_barredPort]

/-- R161, R164: the event of each barring is raised. -/
theorem flagged_barAll (who : PortId → Bool) (s : State) (e : Event) :
    (s.barAll who).flagged e = true ↔ s.flagged e = true ∨
      ∃ p : PortId, who p = true ∧ e = barringEvent (Barred s.ptc.limit (s.port p).requester) := by
  have folded : ∀ (l : List PortId) (u : State), l.Nodup → u.ptc.limit = s.ptc.limit → (∀ p ∈ l, u.port p = s.port p) →
      ((l.foldl (fun u p => if who p then u.enterBarring p else u) u).flagged e = true ↔ u.flagged e = true ∨
        ∃ p ∈ l, who p = true ∧ e = barringEvent (Barred s.ptc.limit (s.port p).requester)) := by
    intro l
    induction l with
    | nil => simp
    | cons p l ih =>
      intro u hl hlimit hports
      obtain ⟨hp, hl⟩ := List.nodup_cons.mp hl
      obtain ⟨own, rest⟩ := List.forall_mem_cons.mp hports
      rw [List.foldl_cons]
      by_cases hw : who p = true
      · have others : ∀ q ∈ l, (u.enterBarring p).port q = s.port q := fun q hq => by
          have apart : ¬p = q := fun k => hp (k ▸ hq)
          rw [port_enterBarring, if_neg apart, rest q hq]
        rw [if_pos hw, ih (u.enterBarring p) hl hlimit others, flagged_enterBarring, hlimit, own]
        simp [hw, or_assoc]
      · rw [if_neg hw, ih u hl hlimit rest]
        simp [hw]
  have all := folded allPorts s allPorts_nodup rfl fun _ _ => rfl
  unfold State.barAll
  simpa using all

/-! ## The write (R159, R164) -/

/-- The threshold and the limit of a FAULT_CONFIG word lie in range. -/
abbrev FaultConfigInRange (v : Word) : Prop := 1 ≤ field v 0 5 ∧ field v 0 5 ≤ 16 ∧ 1 ≤ field v 8 3

theorem writeFaultConfig_of_out {v : Word} (h : ¬FaultConfigInRange v) (s : State) : s.writeFaultConfig v = s := if_neg h

/-- R164: the records weighed by a FAULT_CONFIG write. -/
abbrev State.weighed (v : Word) (s : State) : State := s.withFaultConfig (field v 0 5) (field v 8 3)

theorem writeFaultConfig_of_in {v : Word} (h : FaultConfigInRange v) (s : State) :
    s.writeFaultConfig v =
      if allPorts.any (s.weighed v).atThreshold then
        ((s.weighed v).barAll (s.weighed v).atThreshold).barRequest (s.weighed v).atThreshold
      else s.weighed v :=
  if_pos h

theorem atThreshold_iff {s : State} {p : PortId} :
    s.atThreshold p = true ↔ (s.port p).requester.state = .online ∧ s.ptc.threshold ≤ (s.port p).requester.faults := by
  simp [State.atThreshold]

theorem atThreshold_weighed {s : State} {v : Word} {p : PortId} :
    (s.weighed v).atThreshold p = true ↔
      (s.port p).requester.state = .online ∧ field v 0 5 ≤ (s.port p).requester.faults := by
  rw [atThreshold_iff, port_withFaultConfig]
  rfl

/-- R164: the records weighed, and those at the threshold barred, LE not yet asked. -/
def State.weighedAndBarred (v : Word) (s : State) : State := (s.weighed v).barAll (s.weighed v).atThreshold

theorem barAll_of_none {who : PortId → Bool} (h : ∀ p, who p ≠ true) (s : State) : s.barAll who = s :=
  List.foldlRecOn allPorts _ (motive := fun u => u = s) rfl fun u hu p _ => by rw [if_neg (h p), hu]

/-- R164: where nobody is barred, LE is not asked. -/
theorem writeFaultConfig_of_none {v : Word} (h : FaultConfigInRange v) {s : State}
    (hn : ∀ p, (s.weighed v).atThreshold p ≠ true) : s.writeFaultConfig v = s.weighedAndBarred v := by
  rw [writeFaultConfig_of_in h, if_neg (by simpa using hn), State.weighedAndBarred, barAll_of_none hn]

/-- R164: where one is barred, the requests go to LE together. -/
theorem writeFaultConfig_of_some {v : Word} (h : FaultConfigInRange v) {s : State} {p : PortId}
    (hp : (s.weighed v).atThreshold p = true) :
    s.writeFaultConfig v = (s.weighedAndBarred v).barRequest (s.weighed v).atThreshold := by
  rw [writeFaultConfig_of_in h, if_pos (List.any_eq_true.mpr ⟨p, mem_allPorts p, hp⟩)]
  rfl

/-- R164: what a FAULT_CONFIG write makes of a requester record. -/
def State.weighedRequester (v : Word) (s : State) (p : PortId) : Requester :=
  if (s.weighed v).atThreshold p then Barred (field v 8 3) ((s.port p).requester.lowered (field v 8 3))
  else (s.port p).requester.lowered (field v 8 3)

theorem port_weighedAndBarred (v : Word) (s : State) (p : PortId) :
    (s.weighedAndBarred v).port p = { s.port p with requester := s.weighedRequester v p } := by
  rw [State.weighedAndBarred, port_barAll, port_withFaultConfig, State.weighedRequester]
  split <;> rfl

theorem flagged_weighedAndBarred (v : Word) (s : State) (e : Event) :
    (s.weighedAndBarred v).flagged e = true ↔ s.flagged e = true ∨
      ∃ p : PortId, (s.weighed v).atThreshold p = true ∧
        e = barringEvent (Barred (field v 8 3) ((s.port p).requester.lowered (field v 8 3))) := by
  rw [State.weighedAndBarred, flagged_barAll]
  simp only [port_withFaultConfig]
  rfl

/-- Only the ports and the flags differ from the state with the two values in force. -/
theorem weighedAndBarred_portsAndFlags (v : Word) (s : State) :
    PortsAndFlags { s with ptc := { s.ptc with threshold := field v 0 5, limit := field v 8 3 } }
      (s.weighedAndBarred v) := by
  obtain ⟨ports, flags, h⟩ := barAll_portsAndFlags (s.weighed v).atThreshold (s.weighed v)
  exact ⟨ports, flags, h⟩

/-- R164: what LE does in a FAULT_CONFIG write, it does after the barrings. -/
theorem writeFaultConfig_leaseWork {v : Word} (h : FaultConfigInRange v) (s : State) :
    LeaseWork (s.weighedAndBarred v) (s.writeFaultConfig v) := by
  by_cases hn : ∀ p, (s.weighed v).atThreshold p ≠ true
  · rw [writeFaultConfig_of_none h hn]
    exact .refl _
  · obtain ⟨p, hp⟩ := not_forall_not.mp hn
    rw [writeFaultConfig_of_some h hp]
    exact barRequest_leaseWork _ _

/-- R164: the requester record of each port after a FAULT_CONFIG write in range. -/
theorem requester_writeFaultConfig {v : Word} (h : FaultConfigInRange v) (s : State) (p : PortId) :
    ((s.writeFaultConfig v).port p).requester = s.weighedRequester v p := by
  rw [(writeFaultConfig_leaseWork h s).requester, port_weighedAndBarred]

/-- R161: a barring raises the event of the state it leads to. -/
theorem barringEvent_eq_locked {limit : Nat} {r : Requester} :
    Event.portLockedOut = barringEvent (Barred limit r) ↔ (Barred limit r).state = .lockedOut := by
  unfold barringEvent
  rcases Barred_state limit r with h | h <;> simp [h]

theorem barringEvent_eq_quarantined {limit : Nat} {r : Requester} :
    Event.portQuarantined = barringEvent (Barred limit r) ↔ (Barred limit r).state = .quarantined := by
  unfold barringEvent
  rcases Barred_state limit r with h | h <;> simp [h]

theorem eq_barringEvent {e : Event} {r : Requester} (h : e = barringEvent r) :
    e = .portLockedOut ∨ e = .portQuarantined := by
  unfold barringEvent at h
  split at h
  · exact .inl h
  · exact .inr h

/-! ## What the write leaves -/

/-- A barring of nobody, with LE as it was. -/
theorem barredAtLe_of_none {s t : State} {who : PortId → Prop} (hl : t.le = s.le) (hn : ∀ p, ¬who p) :
    BarredAtLe s t who := by
  have lease : ∀ id, t.lease id = s.lease id := fun id => by unfold State.lease; rw [hl]
  refine ⟨fun _ _ hw => absurd hw (hn _), fun id _ _ => lease id, fun _ _ hw => absurd hw (hn _),
    by rw [hl], fun id _ => .inl (lease id), fun w hw left _ => ?_⟩
  exact absurd ⟨rfl, rfl⟩ (left w (hl ▸ hw))

section Weighed

variable {s : State} {v : Word} (h : FaultConfigInRange v) (hk : KeysUnique s.le.waiters)
include h hk

theorem flagged_writeFaultConfig {e : Event} (he : e ≠ .slotsLow) :
    (s.writeFaultConfig v).flagged e = true ↔ s.flagged e = true ∨
      ∃ p : PortId, (s.weighed v).atThreshold p = true ∧
        e = barringEvent (Barred (field v 8 3) ((s.port p).requester.lowered (field v 8 3))) := by
  rw [← flagged_weighedAndBarred]
  by_cases hn : ∀ p, (s.weighed v).atThreshold p ≠ true
  · rw [writeFaultConfig_of_none h hn]
  · obtain ⟨p, hp⟩ := not_forall_not.mp hn
    obtain ⟨ports, flags, start⟩ := weighedAndBarred_portsAndFlags v s
    rw [writeFaultConfig_of_some h hp, barRequest_flags (by rw [start]; exact hk) e he]

theorem writeFaultConfig_boardKept (p : PortId) : BoardKept s (s.writeFaultConfig v) p := by
  obtain ⟨ports, flags, start⟩ := weighedAndBarred_portsAndFlags v s
  refine boardKept_of_start (v := s.weighedAndBarred v) (by rw [start]) (by rw [port_weighedAndBarred]) ?_
  by_cases hn : ∀ p, (s.weighed v).atThreshold p ≠ true
  · rw [writeFaultConfig_of_none h hn]
    exact fun _ => .inl rfl
  · obtain ⟨q, hq⟩ := not_forall_not.mp hn
    rw [writeFaultConfig_of_some h hq]
    exact barRequest_boardKept (by rw [start]; exact hk) p

theorem writeFaultConfig_barredAtLe :
    BarredAtLe s (s.writeFaultConfig v) (fun p => (s.weighed v).atThreshold p = true) := by
  obtain ⟨ports, flags, start⟩ := weighedAndBarred_portsAndFlags v s
  by_cases hn : ∀ p, (s.weighed v).atThreshold p ≠ true
  · rw [writeFaultConfig_of_none h hn]
    exact barredAtLe_of_none (by rw [start]) hn
  · obtain ⟨p, hp⟩ := not_forall_not.mp hn
    have atLe := barRequest_barredAtLe (s := s.weighedAndBarred v) (who := (s.weighed v).atThreshold)
      (by rw [start]; exact hk)
    rw [← writeFaultConfig_of_some h hp, start] at atLe
    exact atLe

theorem writeFaultConfig_quiet :
    Quiet { s with ptc := { s.ptc with threshold := field v 0 5, limit := field v 8 3 } } (s.writeFaultConfig v)
      [.slotsLow, .portQuarantined, .portLockedOut] := by
  refine ⟨?_, fun e he => ?_⟩
  · obtain ⟨ports, flags, start⟩ := weighedAndBarred_portsAndFlags v s
    have same := (writeFaultConfig_leaseWork h s).eq
    rw [start] at same
    exact same
  · simp only [List.mem_cons, List.not_mem_nil, or_false, not_or] at he
    obtain ⟨notLow, notQuarantined, notLocked⟩ := he
    rw [Bool.eq_iff_iff, flagged_writeFaultConfig h hk notLow]
    refine or_iff_left ?_
    rintro ⟨p, _, hp⟩
    exact (eq_barringEvent hp).elim notLocked notQuarantined

end Weighed

/-- Settles O46: the barrings port by port before the one request to LE, or nobody to bar and LE as it was. -/
theorem faultConfigWeighsTheRequesters : Obligations.FaultConfigWeighsTheRequesters := by
  intro s v
  dsimp only
  change (field v 0 5 = 0 ∨ 16 < field v 0 5 ∨ field v 8 3 = 0 → _) ∧
    (1 ≤ field v 0 5 → field v 0 5 ≤ 16 → 1 ≤ field v 8 3 → _)
  refine ⟨fun out => congrArg Host.Outcome.next (writeFaultConfig_of_out (by omega) s),
    fun h1 h16 hl hunique => ⟨s.writeFaultConfig v, rfl, ?_⟩⟩
  have h : FaultConfigInRange v := ⟨h1, h16, hl⟩
  have keys : KeysUnique s.le.waiters := hunique.1
  have bars := fun p => atThreshold_weighed (s := s) (v := v) (p := p)
  have atLe := writeFaultConfig_barredAtLe h keys
  have quarantined := flagged_writeFaultConfig h keys (e := .portQuarantined) (by decide)
  have locked := flagged_writeFaultConfig h keys (e := .portLockedOut) (by decide)
  simp only [bars, barringEvent_eq_locked, barringEvent_eq_quarantined] at atLe locked quarantined
  refine ⟨fun p => ⟨?_, writeFaultConfig_boardKept h keys p⟩, atLe, quarantined, locked, ?_, ?_,
    writeFaultConfig_quiet h keys⟩
  · have record := (writeFaultConfig_leaseWork h s).port p
    rw [port_weighedAndBarred, State.weighedRequester] at record
    simp only [bars] at record
    exact record
  · rintro ⟨p, hp⟩
    rw [writeFaultConfig_of_some h ((bars p).mpr hp)]
    exact barRequest_done _ _
  · intro none
    have nobody : ∀ p, (s.weighed v).atThreshold p ≠ true := fun p hp => none p ((bars p).mp hp)
    rw [writeFaultConfig_of_none h nobody, State.weighedAndBarred, barAll_of_none nobody]
    refine ⟨rfl, rfl, fun p => ?_⟩
    rw [port_withFaultConfig]
    exact ⟨rfl, rfl⟩

end Sys2Proof.Machine
end

section
/-! SUPPORT. Who holds a lease or waits (R168), and the events that leave every requester's standing as it was: its state, its
in-reset flag and its counts. Such an event only takes leases and waiters away, or hands a waiter the lease it waits for. -/

namespace Sys2Proof.Machine

open Sys2Proof.Safety Sys2Proof.Claims

/-! ## Who holds -/

/-- Requester `p` has a HELD lease or a waiter on slot `r`. -/
def Holds (s : State) (p : PortId) (r : RegionId) : Prop :=
  (∃ id : LeaseId, (s.lease id).state = .held ∧ (s.lease id).holder = p ∧ (s.lease id).region = r) ∨
  ∃ w ∈ s.le.waiters, w.requester = p ∧ w.region = r

theorem holds_of_held {s : State} {id : LeaseId} (h : (s.lease id).state = .held) :
    Holds s (s.lease id).holder (s.lease id).region := .inl ⟨id, h, rfl, rfl⟩

theorem holds_of_waiting {s : State} {w : Waiter} (h : w ∈ s.le.waiters) : Holds s w.requester w.region :=
  .inr ⟨w, h, rfl, rfl⟩

/-- What is so of each HELD lease and of each waiter is so of all that hold. -/
theorem Holds.elim {s : State} {P : PortId → RegionId → Prop} {p : PortId} {r : RegionId} (h : Holds s p r)
    (hl : ∀ id : LeaseId, (s.lease id).state = .held → P (s.lease id).holder (s.lease id).region)
    (hw : ∀ w ∈ s.le.waiters, P w.requester w.region) : P p r := by
  rcases h with ⟨id, held, rfl, rfl⟩ | ⟨w, waits, rfl, rfl⟩
  · exact hl id held
  · exact hw w waits

theorem holdersOnline_iff {s : State} : HoldersOnline s ↔ ∀ p r, Holds s p r → MayHold s p r :=
  ⟨fun ⟨hl, hw⟩ _ _ h => h.elim hl hw,
    fun h => ⟨fun _ held => h _ _ (holds_of_held held), fun _ waits => h _ _ (holds_of_waiting waits)⟩⟩

/-- Who holds, by the Lease Table and the Wait List alone. -/
theorem holds_of_eq {s t : State} (hl : t.le.leases = s.le.leases) (hw : t.le.waiters = s.le.waiters) {p : PortId}
    {r : RegionId} (h : Holds t p r) : Holds s p r := by
  have lease : ∀ id, t.lease id = s.lease id := fun id => by unfold State.lease; rw [hl]
  refine h.elim (fun id held => ?_) fun w waits => holds_of_waiting (hw ▸ waits)
  rw [lease] at held ⊢
  exact holds_of_held held

/-! ## Events that change no requester's standing -/

/-- R84: a slot that leases and waiters may name. -/
abbrev Serving (d : Region) : Prop := d.state = .active ∨ d.state = .suspended

/-- Requesters keep their standing; who holds after the event held before it, and the slots named go on serving. -/
structure Steady (s t : State) : Prop where
  map : t.mu.map = s.mu.map
  threshold : t.ptc.threshold = s.ptc.threshold
  limit : t.ptc.limit = s.ptc.limit
  requester : ∀ p : PortId, (t.port p).requester =
    { (s.port p).requester with
      busPriority := (t.port p).requester.busPriority, claimCap := (t.port p).requester.claimCap }
  holds : ∀ p r, Holds t p r → Holds s p r
  serves : ∀ p r, Holds t p r → Serving (s.region r) → Serving (t.region r)

namespace Steady

variable {s t u : State}

theorem trans (h : Steady s t) (k : Steady t u) : Steady s u where
  map := k.map.trans h.map
  threshold := k.threshold.trans h.threshold
  limit := k.limit.trans h.limit
  requester p := by rw [k.requester p, h.requester p]
  holds p r x := h.holds p r (k.holds p r x)
  serves p r x hr := k.serves p r x (h.serves p r (k.holds p r x) hr)

theorem state (h : Steady s t) (p : PortId) : (t.port p).requester.state = (s.port p).requester.state := by
  rw [h.requester p]

theorem inReset (h : Steady s t) (p : PortId) : (t.port p).requester.inReset = (s.port p).requester.inReset := by
  rw [h.requester p]

/-- A change of none of these records. -/
theorem aside (hl : t.le.leases = s.le.leases) (hw : t.le.waiters = s.le.waiters) (hp : t.ptc = s.ptc)
    (hm : t.mu.map = s.mu.map) (hr : t.mu.regions = s.mu.regions) : Steady s t where
  map := hm
  threshold := by rw [hp]
  limit := by rw [hp]
  requester p := by unfold State.port; rw [hp]
  holds _ _ := holds_of_eq hl hw
  serves _ r _ h := by unfold State.region; rw [hr]; exact h

theorem refl (s : State) : Steady s s := aside rfl rfl rfl rfl rfl

theorem foldl {α : Type} {f : State → α → State} (h : ∀ s a, Steady s (f s a)) (l : List α) (s : State) :
    Steady s (l.foldl f s) := by
  induction l generalizing s with
  | nil => exact refl s
  | cons a l ih => exact (h s a).trans (ih (f s a))

end Steady

/-- An operation of the Lease Engine, by who holds after it. -/
theorem LeaseWork.steady {s t : State} (h : LeaseWork s t) (holds : ∀ p r, Holds t p r → Holds s p r) : Steady s t where
  map := by rw [h.mu]
  threshold := h.threshold
  limit := h.limit
  requester p := by rw [h.requester]
  holds := holds
  serves _ r _ hr := by rw [h.region]; exact hr

theorem updPort_steady (p : PortId) {f : Port → Port} {s : State}
    (h : (f (s.port p)).requester =
      { (s.port p).requester with
        busPriority := (f (s.port p)).requester.busPriority, claimCap := (f (s.port p)).requester.claimCap }) :
    Steady s (s.updPort p f) where
  map := rfl
  threshold := rfl
  limit := rfl
  requester q := by
    rw [port_updPort]
    split
    · next e =>
      subst e
      exact h
    · rfl
  holds _ _ := holds_of_eq rfl rfl
  serves _ _ _ hr := hr

theorem updRegion_steady (r : RegionId) {f : Region → Region} {s : State}
    (h : Serving (s.region r) → Serving (f (s.region r))) : Steady s (s.updRegion r f) where
  map := rfl
  threshold := rfl
  limit := rfl
  requester _ := rfl
  holds _ _ := holds_of_eq rfl rfl
  serves _ k _ hk := by
    rw [region_updRegion]
    split
    · next e =>
      subst e
      exact h hk
    · exact hk

theorem answer_steady (p : PortId) (x : Answer) (s : State) : Steady s (s.answer p x) := updPort_steady p rfl

theorem placeNotice_steady (p : PortId) (tag : Tag) (n : ClaimNotice) (s : State) : Steady s (s.placeNotice p tag n) :=
  updPort_steady p rfl

theorem updAccess_steady (p : PortId) (f : AccessRecord → AccessRecord) (s : State) : Steady s (s.updAccess p f) :=
  updPort_steady p rfl

theorem raise_steady (e : Event) (s : State) : Steady s (s.raise e) := .aside rfl rfl rfl rfl rfl

theorem finish_steady (code : BitVec 4) (result : HostResult) (s : State) : Steady s (s.finish code result) :=
  .aside rfl rfl rfl rfl rfl

theorem setHold_steady (h : Option BusHold) (s : State) : Steady s (s.setHold h) := .aside rfl rfl rfl rfl rfl

theorem updTarget_steady (x : TargetId) (f : Target → Target) (s : State) : Steady s (s.updTarget x f) :=
  .aside rfl rfl rfl rfl rfl

/-! ## The Lease Engine -/

theorem putLease_steady {id : LeaseId} {l : Lease} {s : State} (h : l.state = .held → Holds s l.holder l.region) :
    Steady s (s.putLease id l) :=
  (putLease_leaseWork id l s).steady fun p r holds => by
    refine holds.elim (fun j held => ?_) fun w waits => holds_of_waiting (by simpa using waits)
    rw [lease_putLease] at held ⊢
    split at held
    · next e => rw [if_pos e]; exact h held
    · next e => rw [if_neg e]; exact holds_of_held held

theorem putLease_steady_of_ne_held {id : LeaseId} {l : Lease} (h : l.state ≠ .held) (s : State) :
    Steady s (s.putLease id l) := putLease_steady fun k => absurd k h

/-- A write of a record that leaves its state, its holder and its slot. -/
theorem putLease_steady_of_same {id : LeaseId} {l : Lease} {s : State} (hs : l.state = (s.lease id).state)
    (hh : l.holder = (s.lease id).holder) (hr : l.region = (s.lease id).region) : Steady s (s.putLease id l) :=
  putLease_steady fun held => by
    rw [hh, hr]
    exact holds_of_held (hs ▸ held)

theorem freeLease_steady (id : LeaseId) (s : State) : Steady s (s.freeLease id) :=
  putLease_steady_of_ne_held LeaseState.noConfusion s

theorem setWaiters_steady {ws : List Waiter} {s : State} (h : ∀ w ∈ ws, Holds s w.requester w.region) :
    Steady s (s.setWaiters ws) :=
  (setWaiters_leaseWork ws s).steady fun _ _ holds => holds.elim (fun _ held => holds_of_held held) h

theorem removeWaiters_steady (out : Waiter → Bool) (s : State) : Steady s (s.removeWaiters out) :=
  setWaiters_steady fun _ hw => holds_of_waiting (List.mem_of_mem_filter hw)

theorem dropWaiters_steady (out : Waiter → Bool) (reason : DropReason) (s : State) :
    Steady s (s.dropWaiters out reason) :=
  (setWaiters_steady fun _ hw => holds_of_waiting (List.mem_of_mem_filter hw)).trans
    (Steady.foldl (fun u (w : Waiter) => placeNotice_steady w.requester w.tag _ u) _ _)

theorem weighSlotsLow_steady (before : Nat) (s : State) : Steady s (s.weighSlotsLow before) := by
  unfold State.weighSlotsLow
  split
  · exact raise_steady _ s
  · exact .refl s

theorem grantLease_steady (id : LeaseId) {w : Waiter} {s : State} (h : Holds s w.requester w.region) :
    Steady s (s.grantLease id w.requester w.region w.range w.mode w.priority w.term) :=
  (putLease_steady fun _ => h).trans (weighSlotsLow_steady _ _)

/-- R96: the walk hands leases to waiters of the list only. -/
theorem scanWalk_steady (ahead ws : List Waiter) (s : State) (h : ∀ w ∈ ahead ++ ws, w ∈ s.le.waiters) :
    Steady s (scanWalk ahead ws s) := by
  induction ws generalizing ahead s with
  | nil => exact setWaiters_steady fun w hw => holds_of_waiting (h w (by simpa using hw))
  | cons w ws ih =>
    have pass : Steady s (scanWalk (ahead ++ [w]) ws s) := ih _ s (by simpa using h)
    unfold scanWalk
    split
    · exact pass
    split
    · exact pass
    split
    · exact setWaiters_steady fun v hv => holds_of_waiting (h v hv)
    · next id _ =>
      have granted : Steady s (s.grantWaiter id w) :=
        (grantLease_steady id (holds_of_waiting (h w (by simp)))).trans (placeNotice_steady _ _ _ _)
      refine granted.trans (ih ahead _ fun v hv => ?_)
      rw [waiters_grantWaiter]
      exact h v (((List.sublist_cons_self w ws).append_left ahead).subset hv)

theorem grantScan_steady (s : State) : Steady s s.grantScan := scanWalk_steady [] _ s fun _ h => h

theorem settle_steady (before : State) {s t : State} (h : Steady s t) : Steady s (before.settle t) := by
  unfold State.settle
  split
  · exact h.trans (grantScan_steady t)
  · exact h

theorem revoke_steady (x : RevokeReason) (id : LeaseId) (s : State) : Steady s (s.revoke x id) := by
  unfold State.revoke
  dsimp only
  split
  · exact .refl s
  split
  · exact putLease_steady_of_ne_held LeaseState.noConfusion s
  split
  · exact freeLease_steady id s
  · exact putLease_steady_of_ne_held LeaseState.noConfusion s

theorem revokeAll_steady (x : RevokeReason) (which : Lease → Bool) (s : State) : Steady s (s.revokeAll x which) := by
  refine Steady.foldl (fun s id => ?_) _ s
  split
  · exact revoke_steady x id s
  · exact .refl s

theorem clearSlot_steady (p : PortId) (id : LeaseId) (s : State) : Steady s (s.clearSlot p id) := by
  rw [clearSlot_eq]
  split
  · refine putLease_steady_of_ne_held ?_ s
    rw [silenced_state]
    split <;> decide
  · exact .refl s

theorem freeTombstones_steady (p : PortId) (s : State) : Steady s (s.freeTombstones p) := by
  refine Steady.foldl (fun s id => ?_) _ s
  split
  · exact freeLease_steady id s
  · exact .refl s

theorem barRequest_steady (who : PortId → Bool) (s : State) : Steady s (s.barRequest who) :=
  ((revokeAll_steady _ _ s).trans (dropWaiters_steady _ _ _)).trans (grantScan_steady _)

theorem clearRequest_steady (p : PortId) (s : State) : Steady s (s.clearRequest p) :=
  settle_steady s ((Steady.foldl (fun s id => clearSlot_steady p id s) _ s).trans (removeWaiters_steady _ _))

/-- R163: no requester that is barred holds after the barring. -/
theorem holds_barRequest {who : PortId → Bool} {s : State} {p : PortId} {r : RegionId}
    (h : Holds (s.barRequest who) p r) : who p = false := by
  have before : Holds (s.beginBar who) p r := (grantScan_steady (s.beginBar who)).holds p r h
  refine before.elim (P := fun p _ => who p = false) (fun id held => ?_) fun w hw => (mem_waiters_beginBar.mp hw).2
  rw [lease_beginBar] at held ⊢
  split at held
  · rw [Revoked_state] at held
    split at held <;> cases held
  · next notBarred =>
    rw [if_neg notBarred]
    exact Bool.eq_false_of_not_eq_true fun k => notBarred ⟨held, k⟩

/-- R75, R92: the requester cleared holds nothing after the clearing. -/
theorem holds_clearRequest {p q : PortId} {s : State} {r : RegionId} (h : Holds (s.clearRequest p) q r) : q ≠ p := by
  have before : Holds (s.beginClear p) q r := (settle_steady s (.refl (s.beginClear p))).holds q r h
  refine before.elim (P := fun q _ => q ≠ p) (fun id held => ?_) fun w hw => (mem_waiters_beginClear.mp hw).2
  rw [lease_beginClear] at held ⊢
  split at held
  · rw [silenced_state] at held
    split at held <;> cases held
  · next notCleared =>
    rw [if_neg notCleared]
    exact fun k => notCleared ⟨k, by rw [held]; decide⟩

/-- R22, R90: nobody holds on a slot as it is retired. -/
theorem holds_retiringState {r k : RegionId} {s : State} {p : PortId} (h : Holds (s.retiringState r) p k) : k ≠ r := by
  have before : Holds (s.beginRetire r) p k := (settle_steady (s.setRetiring r) (.refl (s.beginRetire r))).holds p k h
  refine before.elim (P := fun _ k => k ≠ r) (fun id held => ?_) fun w hw => (mem_waiters_beginRetire.mp hw).2
  rw [lease_beginRetire] at held ⊢
  split at held
  · rw [Revoked_state] at held
    split at held <;> cases held
  · next notRetired =>
    rw [if_neg notRetired]
    exact fun k => notRetired ⟨held, k⟩

/-- R22: the slot that is retired serves nobody any more, and nobody holds there. -/
theorem retiringState_steady (r : RegionId) (s : State) : Steady s (s.retiringState r) := by
  have work := retiringState_leaseWork r s
  have after : Steady (s.setRetiring r) (s.retiringState r) :=
    settle_steady _ ((revokeAll_steady _ _ _).trans (dropWaiters_steady _ _ _))
  refine ⟨after.map, after.threshold, after.limit, after.requester, fun p k h => ?_, fun p k h serving => ?_⟩
  · exact holds_of_eq rfl rfl (after.holds p k h)
  · rw [work.region, setRetiring_region, if_neg (holds_retiringState h).symm]
    exact serving

/-! ## Ends of leases and lease time -/

/-- R23: what a retirement ends serves nobody. -/
theorem retireTest_steady (r : RegionId) (s : State) : Steady s (s.retireTest r) := by
  unfold State.retireTest
  split
  · next done =>
    obtain ⟨retiring, _⟩ := retireDone_iff.mp done
    have ended : Steady s (s.updRegion r fun d => { d with state := .invalid }) :=
      updRegion_steady r fun h => by
        rw [Serving, retiring] at h
        rcases h with h | h <;> cases h
    exact ended.trans (finish_steady _ _ _)
  · exact .refl s

theorem drainLease_steady (id : LeaseId) (s : State) : Steady s (s.drainLease id) := by
  unfold State.drainLease
  refine settle_steady s (.trans ?_ (retireTest_steady _ _))
  split
  · exact freeLease_steady id s
  · exact putLease_steady_of_ne_held LeaseState.noConfusion s

theorem drainOne_steady (id : LeaseId) (s : State) : Steady s (s.drainOne id) := by
  unfold State.drainOne
  split
  · exact drainLease_steady id s
  · exact .refl s

theorem endUnder_steady (id : LeaseId) (gen : Generation) (s : State) : Steady s (s.endUnder id gen) := by
  unfold State.endUnder
  dsimp only
  split
  · exact .refl s
  split
  · exact putLease_steady_of_same rfl rfl rfl
  · exact drainLease_steady id s
  · exact .refl s
  · exact .refl s

/-- R106: counting down changes no lease's state, holder or slot. -/
theorem lowerLeases_steady (s : State) : Steady s s.lowerLeases := by
  have lease : ∀ id, s.lowerLeases.lease id = (s.lease id).lowered := fun id => mapTable_get _ _ id
  have same : ∀ l : Lease, l.lowered.state = l.state ∧ l.lowered.holder = l.holder ∧ l.lowered.region = l.region :=
    fun l => by
      unfold Lease.lowered
      split <;> exact ⟨rfl, rfl, rfl⟩
  refine ⟨rfl, rfl, rfl, fun _ => rfl, fun p r h => ?_, fun _ _ _ hr => hr⟩
  refine h.elim (fun id held => ?_) fun w waits => holds_of_waiting (s := s) waits
  obtain ⟨hs, hh, hr⟩ := same (s.lease id)
  rw [lease, hh, hr]
  rw [lease, hs] at held
  exact holds_of_held held

theorem lowerBudgets_steady (s : State) : Steady s s.lowerBudgets :=
  setWaiters_steady fun _ hv => by
    obtain ⟨w, hw, rfl⟩ := List.mem_map.mp hv
    exact (holds_of_waiting hw : Holds s w.requester w.region)

theorem expireLeases_steady (s : State) : Steady s s.expireLeases := by
  unfold State.expireLeases
  split
  · exact (revokeAll_steady _ _ s).trans (raise_steady _ _)
  · exact .refl s

theorem tick_steady (s : State) : Steady s s.tick := by
  unfold State.tick
  split
  · exact .refl s
  · have loaded : Steady s { s with divider := tickPeriod s.mgp.tickDiv } := .aside rfl rfl rfl rfl rfl
    refine loaded.trans (settle_steady _ ?_)
    exact (((lowerLeases_steady _).trans (expireLeases_steady _)).trans (lowerBudgets_steady _)).trans
      (dropWaiters_steady _ _ _)

theorem expireOne_steady (id : LeaseId) (s : State) : Steady s (s.expireOne id) := by
  unfold State.expireOne
  split
  · exact settle_steady s ((revoke_steady _ id s).trans (raise_steady _ _))
  · exact .refl s

theorem timeOutOne_steady (p : PortId) (tag : Tag) (s : State) : Steady s (s.timeOutOne p tag) :=
  settle_steady s (dropWaiters_steady _ _ s)

theorem refclkPeriod_steady (s : State) : Steady s s.refclkPeriod := by
  unfold State.refclkPeriod
  split
  · exact .refl s
  split
  · exact tick_steady s
  · exact .aside rfl rfl rfl rfl rfl

theorem resumeScan_steady (s : State) : Steady s s.resumeScan := by
  unfold State.resumeScan
  split
  · exact .refl s
  · have taken : Steady s { s with le := { s.le with resumeScans := s.le.resumeScans - 1 } } :=
      .aside rfl rfl rfl rfl rfl
    exact taken.trans (grantScan_steady _)

end Sys2Proof.Machine
end

section
/-! What an event keeps of the requesters (R159 to R169): the bounds of their counts, that only those ONLINE and not in reset hold,
that LOCKED_OUT stays, and whether the map goes LIVE in it. An event that takes a requester out of service takes from it all it
holds. -/

namespace Sys2Proof.Machine

open Sys2Proof.Safety Sys2Proof.Claims

/-! ## The laws of the requesters -/

/-- R169, R159, R160 of one requester record. -/
abbrev FaultsFit (threshold limit : Nat) (q : Requester) : Prop :=
  q.quarantines ≤ limit ∧ (q.state = .online → q.faults < threshold) ∧ (q.state ≠ .online → q.faults = 0)

/-- What the event from `s` to `t` keeps of the requesters. The map goes LIVE in it only where `live` says so. -/
structure RequestersKept (live : Prop) (s t : State) : Prop where
  faults : FaultsContained s → FaultsContained t
  holders : HoldersOnline s → HoldersOnline t
  locked : ∀ p : PortId, (s.port p).requester.state = .lockedOut → (t.port p).requester.state = .lockedOut
  map : t.mu.map = s.mu.map ∨ (live ∧ s.mu.map = .boot ∧ t.mu.map = .live)

variable {live : Prop} {s t u : State}

namespace RequestersKept

theorem trans (h : RequestersKept live s t) (k : RequestersKept live t u) : RequestersKept live s u where
  faults := k.faults ∘ h.faults
  holders := k.holders ∘ h.holders
  locked p := k.locked p ∘ h.locked p
  map := by
    rcases h.map with h | ⟨hl, hs, ht⟩
    · rw [← h]
      exact k.map
    · rcases k.map with k | ⟨_, kt, _⟩
      · exact .inr ⟨hl, hs, k.trans ht⟩
      · rw [ht] at kt
        cases kt

theorem mono {live' : Prop} (h : RequestersKept live s t) (k : live → live') : RequestersKept live' s t :=
  ⟨h.faults, h.holders, h.locked, h.map.imp_right fun ⟨hl, hm⟩ => ⟨k hl, hm⟩⟩

end RequestersKept

/-- R169: with the same values in force, the bounds hold where each record keeps them. -/
theorem faultsContained_of_records (ht : t.ptc.threshold = s.ptc.threshold) (hl : t.ptc.limit = s.ptc.limit)
    (h : 1 ≤ s.ptc.threshold → ∀ p : PortId, FaultsFit s.ptc.threshold s.ptc.limit (s.port p).requester →
      FaultsFit s.ptc.threshold s.ptc.limit (t.port p).requester) (hs : FaultsContained s) : FaultsContained t := by
  obtain ⟨⟨one, rest⟩, records⟩ := hs
  rw [FaultsContained, ht, hl]
  exact ⟨⟨one, rest⟩, fun p => h one p (records p)⟩

theorem Steady.requestersKept (h : Steady s t) : RequestersKept live s t where
  faults := faultsContained_of_records h.threshold h.limit fun _ p fits => by
    rw [h.requester p]
    exact fits
  holders hs := holdersOnline_iff.mpr fun p r holds => by
    obtain ⟨online, noReset, serving⟩ := holdersOnline_iff.mp hs p r (h.holds p r holds)
    exact ⟨(h.state p).trans online, (h.inReset p).trans noReset, h.serves p r holds serving⟩
  locked p hp := (h.state p).trans hp
  map := .inl h.map

theorem RequestersKept.refl (s : State) : RequestersKept live s s := (Steady.refl s).requestersKept

/-- A change of no record that the laws speak of. -/
theorem RequestersKept.aside (hl : t.le.leases = s.le.leases) (hw : t.le.waiters = s.le.waiters) (hp : t.ptc = s.ptc)
    (hm : t.mu.map = s.mu.map) (hr : t.mu.regions = s.mu.regions) : RequestersKept live s t :=
  (Steady.aside hl hw hp hm hr).requestersKept

theorem RequestersKept.foldl {α : Type} {f : State → α → State} (h : ∀ s a, RequestersKept live s (f s a)) (l : List α)
    (s : State) : RequestersKept live s (l.foldl f s) := by
  induction l generalizing s with
  | nil => exact .refl s
  | cons a l ih => exact (h s a).trans (ih (f s a))

/-- A change of one requester that stays in the bounds and takes nothing from a requester that is ONLINE. -/
theorem updRequester_requestersKept (p : PortId) {f : Requester → Requester}
    (hf : 1 ≤ s.ptc.threshold → FaultsFit s.ptc.threshold s.ptc.limit (s.port p).requester →
      FaultsFit s.ptc.threshold s.ptc.limit (f (s.port p).requester))
    (ho : (s.port p).requester.state = .online → (f (s.port p).requester).state = .online)
    (hr : (s.port p).requester.inReset = false → (f (s.port p).requester).inReset = false)
    (hl : (s.port p).requester.state = .lockedOut → (f (s.port p).requester).state = .lockedOut) :
    RequestersKept live s (s.updRequester p f) where
  faults := faultsContained_of_records rfl rfl fun one q fits => by
    rw [port_updRequester]
    split
    · next e =>
      subst e
      exact hf one fits
    · exact fits
  holders := fun hs => holdersOnline_iff.mpr fun q r holds => by
    obtain ⟨online, noReset, serving⟩ := holdersOnline_iff.mp hs q r (holds_of_eq rfl rfl holds)
    rw [MayHold, port_updRequester]
    split
    · next e =>
      subst e
      exact ⟨ho online, hr noReset, serving⟩
    · exact ⟨online, noReset, serving⟩
  locked q hq := by
    rw [port_updRequester]
    split
    · next e =>
      subst e
      exact hl hq
    · exact hq
  map := .inl rfl

/-- R168: the requesters that `out` names lose their standing, and with it all they held. -/
theorem holdersOnline_of_leave {out : PortId → Prop} (hle : u.le = s.le) (hr : u.mu.regions = s.mu.regions)
    (stay : ∀ p, ¬out p → (u.port p).requester.state = (s.port p).requester.state ∧
      (u.port p).requester.inReset = (s.port p).requester.inReset)
    (k : Steady u t) (gone : ∀ p r, Holds t p r → ¬out p) (hs : HoldersOnline s) : HoldersOnline t :=
  holdersOnline_iff.mpr fun p r holds => by
    have before : Holds s p r := holds_of_eq (by rw [hle]) (by rw [hle]) (k.holds p r holds)
    obtain ⟨online, noReset, serving⟩ := holdersOnline_iff.mp hs p r before
    obtain ⟨state, inReset⟩ := stay p (gone p r holds)
    have region : u.region r = s.region r := by unfold State.region; rw [hr]
    exact ⟨(k.state p).trans (state.trans online), (k.inReset p).trans (inReset.trans noReset),
      k.serves p r holds (region ▸ serving)⟩

/-! ## Barrings and counted faults (R160, R161) -/

/-- R161: a barring leaves a record in its bounds, its requester no longer ONLINE. -/
theorem faultsFit_barred {threshold limit : Nat} {q : Requester} (h : q.quarantines ≤ limit) :
    FaultsFit threshold limit (Barred limit q) := by
  have notOnline : (Barred limit q).state ≠ .online := by
    rcases Barred_state limit q with k | k <;> rw [k] <;> decide
  refine ⟨?_, fun k => absurd k notOnline, fun _ => rfl⟩
  unfold Barred
  dsimp only
  split <;> omega

/-- R161, R163: an ONLINE requester is barred, and loses what it held. -/
theorem barred_requestersKept {p : PortId} (online : (s.port p).requester.state = .online) :
    RequestersKept live s ((s.barredPort p).barRequest fun x => x == p) := by
  have after : Steady (s.barredPort p) ((s.barredPort p).barRequest fun x => x == p) := barRequest_steady _ _
  have other : ∀ q, q ≠ p → ((s.barredPort p).port q).requester = (s.port q).requester := fun q hq => by
    rw [port_barredPort, if_neg hq.symm]
  have barred : FaultsContained s → FaultsContained (s.barredPort p) :=
    faultsContained_of_records rfl rfl fun _ q fits => by
      rw [port_barredPort]
      split
      · next e =>
        subst e
        exact faultsFit_barred fits.1
      · exact fits
  refine ⟨fun hs => ?_, fun hs => ?_, fun q hq => ?_, .inl after.map⟩
  · exact after.requestersKept (live := False).faults (barred hs)
  · refine holdersOnline_of_leave (s := s) (u := s.barredPort p) (out := fun q => q = p) rfl rfl (fun q hq => ?_) after
      (fun q r holds => ?_) hs
    · rw [other q hq]
      exact ⟨rfl, rfl⟩
    · simpa using holds_barRequest holds
  · have apart : q ≠ p := fun e => by
      rw [e, online] at hq
      cases hq
    rw [after.state, other q apart, hq]

/-- R160, R161: faults are counted of ONLINE requesters, up to the threshold. -/
theorem countFault_requestersKept {p : PortId} (online : (s.port p).requester.state = .online) :
    RequestersKept live s (s.countFault p) := by
  by_cases below : (s.port p).requester.faults + 1 < s.ptc.threshold
  · rw [countFault_of_lt below]
    refine updRequester_requestersKept p (f := fun q => { q with faults := (s.port p).requester.faults + 1 })
      (fun _ ⟨quarantines, _, _⟩ => ⟨quarantines, fun _ => below, fun k => absurd online k⟩) id id id
  · rw [countFault_of_le (not_lt.mp below)]
    exact barred_requestersKept online

/-! ## Lease commands -/

/-- R84: a claim of a requester that may hold is granted, or waits. -/
theorem requestersKept_of_claim (hmu : t.mu = s.mu) (ht : t.ptc.threshold = s.ptc.threshold)
    (hl : t.ptc.limit = s.ptc.limit) (hq : ∀ p, (t.port p).requester = (s.port p).requester)
    (holds : ∀ p r, Holds t p r → Holds s p r ∨ MayHold s p r) : RequestersKept live s t where
  faults := faultsContained_of_records ht hl fun _ p fits => by
    rw [hq]
    exact fits
  holders hs := holdersOnline_iff.mpr fun p r h => by
    have may : MayHold s p r := (holds p r h).elim (holdersOnline_iff.mp hs p r) id
    have region : t.region r = s.region r := by unfold State.region; rw [hmu]
    rw [MayHold, hq, region]
    exact may
  locked p hp := by rw [hq, hp]
  map := .inl (by rw [hmu])

/-- What a lease command keeps: the laws, and the state of every requester. -/
structure Commanded (live : Prop) (s t : State) : Prop where
  kept : RequestersKept live s t
  state : ∀ p : PortId, (t.port p).requester.state = (s.port p).requester.state

theorem Commanded.trans (h : Commanded live s t) (k : Commanded live t u) : Commanded live s u :=
  ⟨h.kept.trans k.kept, fun p => (k.state p).trans (h.state p)⟩

theorem Steady.commanded (h : Steady s t) : Commanded live s t := ⟨h.requestersKept, h.state⟩

theorem Commanded.refl (s : State) : Commanded live s s := (Steady.refl s).commanded

theorem grantLease_commanded (id : LeaseId) {w : Waiter} (h : MayHold s w.requester w.region) :
    Commanded live s (s.grantLease id w.requester w.region w.range w.mode w.priority w.term) := by
  have work := grantLease_leaseWork id w.requester w.region w.range w.mode w.priority w.term s
  refine ⟨requestersKept_of_claim work.mu work.threshold work.limit work.requester fun p r holds => ?_,
    fun p => by rw [work.requester]⟩
  unfold State.grantLease at holds
  refine ((weighSlotsLow_steady _ _).holds p r holds).elim (P := fun p r => Holds s p r ∨ MayHold s p r)
    (fun j held => ?_) fun v waits => .inl (holds_of_waiting (by simpa using waits))
  rw [lease_putLease] at held ⊢
  split at held
  · next e =>
    rw [if_pos e]
    exact .inr h
  · next e =>
    rw [if_neg e]
    exact .inl (holds_of_held held)

theorem enterWaiter_commanded {w : Waiter} (h : MayHold s w.requester w.region) : Commanded live s (s.enterWaiter w) := by
  refine ⟨requestersKept_of_claim rfl rfl rfl (fun _ => rfl) fun p r holds => ?_, fun _ => rfl⟩
  refine holds.elim (P := fun p r => Holds s p r ∨ MayHold s p r) (fun id held => .inl (holds_of_held (s := s) held))
    fun v waits => ?_
  rcases mem_insertWaiter.mp waits with rfl | waits
  · exact .inr h
  · exact .inl (holds_of_waiting waits)

theorem weighClaim_commanded {w : Waiter} (h : MayHold s w.requester w.region) :
    Commanded live s (s.weighClaim w).1 := by
  unfold State.weighClaim
  dsimp only
  split
  · exact grantLease_commanded _ h
  split
  · exact .refl s
  · exact (enterWaiter_commanded h).trans (settle_steady s (.refl _)).commanded

theorem leClaim_commanded {p : PortId} (h : MayWait s p) (w0 w1 w2 : Word) :
    Commanded live s (s.leClaim p w0 w1 w2).1 := by
  obtain ⟨online, noReset⟩ := h
  unfold State.leClaim
  split
  · split
    · exact .refl s
    · next checked =>
      obtain ⟨_, active, _⟩ := checkClaim_ok checked
      exact weighClaim_commanded ⟨online, noReset, .inl active⟩
  · exact .refl s

/-- R66: a renewal takes a fault off the requester's count. -/
theorem leRenew_commanded (p : PortId) (w0 : Word) (s : State) : Commanded live s (s.leRenew p w0).1 := by
  have early : Steady s (s.putLease (reqLease w0)
      { s.lease (reqLease w0) with faults := (s.lease (reqLease w0)).faults + 1 }) := putLease_steady_of_same rfl rfl rfl
  have renewed : Steady s (s.putLease (reqLease w0)
      { s.lease (reqLease w0) with remaining := (s.lease (reqLease w0)).term }) := putLease_steady_of_same rfl rfl rfl
  unfold State.leRenew
  dsimp only
  split
  · exact .refl s
  split
  · split
    · exact (settle_steady s (early.trans (revoke_steady _ _ _))).commanded
    · exact early.commanded
  split
  · exact .refl s
  · dsimp only
    refine renewed.commanded.trans ⟨updRequester_requestersKept p ?_ id id id, fun q => ?_⟩
    · rintro - ⟨quarantines, online, barred⟩
      exact ⟨quarantines, fun k => (Nat.sub_le _ _).trans_lt (online k), fun k => by rw [barred k]⟩
    · rw [port_updRequester]
      split <;> rfl

theorem leRelease_steady (p : PortId) (w0 : Word) (s : State) : Steady s (s.leRelease p w0).1 := by
  have free : Steady s (s.settle (s.freeLease (reqLease w0))) := settle_steady s (freeLease_steady _ s)
  unfold State.leRelease
  dsimp only
  split
  · exact .refl s
  split
  · exact .refl s
  split
  · exact free
  · exact free
  · exact .refl s
  · exact .refl s

theorem leUpgrade_steady (p : PortId) (w0 : Word) (s : State) : Steady s (s.leUpgrade p w0).1 := by
  unfold State.leUpgrade
  dsimp only
  split
  · exact .refl s
  split
  · exact .refl s
  split
  · exact .refl s
  split
  · exact .refl s
  split
  · exact .refl s
  split
  · exact .refl s
  · exact putLease_steady_of_same rfl rfl rfl

theorem leDowngrade_steady (p : PortId) (w0 : Word) (s : State) : Steady s (s.leDowngrade p w0).1 := by
  unfold State.leDowngrade
  dsimp only
  split
  · exact .refl s
  split
  · exact settle_steady s (putLease_steady_of_same rfl rfl rfl)
  · exact .refl s

theorem leWithdraw_steady (p : PortId) (w0 : Word) (s : State) : Steady s (s.leWithdraw p w0).1 := by
  unfold State.leWithdraw
  dsimp only
  split
  · exact settle_steady s (removeWaiters_steady _ s)
  · exact .refl s

theorem leCommand_commanded {p : PortId} (h : MayWait s p) : Commanded live s (s.leCommand p).1 := by
  unfold State.leCommand
  dsimp only
  split
  · exact .refl s
  split
  · exact leClaim_commanded h _ _ _
  · exact leRenew_commanded p _ s
  · exact (leRelease_steady p _ s).commanded
  · exact (leUpgrade_steady p _ s).commanded
  · exact (leDowngrade_steady p _ s).commanded
  · exact (leWithdraw_steady p _ s).commanded
  · exact .refl s
  · exact .refl s
  · exact .refl s

theorem submit_requestersKept {p : PortId} (h : MayWait s p) : RequestersKept live s (s.submit p) := by
  have replied : ∀ (r : Reply) (x : State), Steady x ((x.placeReply p r).answer p .writeDone) := fun r x =>
    .trans (t := x.placeReply p r) (updPort_steady p rfl) (answer_steady p _ _)
  have answered : Commanded live s (((s.leCommand p).1.placeReply p (s.leCommand p).2).answer p .writeDone) :=
    (leCommand_commanded h).trans (replied _ _).commanded
  unfold State.submit
  dsimp only
  split
  · exact answered.kept.trans (countFault_requestersKept ((answered.state p).trans h.1))
  · exact answered.kept

/-! ## Accesses -/

theorem takeNotice_requester (q : Port) : q.takeNotice.requester = q.requester := by
  unfold Port.takeNotice
  split <;> rfl

theorem windowRead_steady (p : PortId) (w : WindowSlot) (s : State) : Steady s (s.windowRead p w) := by
  unfold State.windowRead
  split
  · exact updPort_steady p rfl
  · exact updPort_steady p rfl
  · exact updPort_steady p (by rw [takeNotice_requester])
  all_goals exact .refl s

theorem windowAccess_requestersKept {p : PortId} {a : Presentation} (h : a.dir = .write → MayWait s p) :
    RequestersKept live s (s.windowAccess p a) := by
  have written : ∀ k be data, Steady s (s.writeRequest p k be data) := fun _ _ _ => updPort_steady p rfl
  unfold State.windowAccess
  dsimp only
  split
  · exact ((windowRead_steady p _ s).trans (answer_steady p _ _)).requestersKept
  next hdir =>
  split
  · exact ((written _ _ _).trans (answer_steady p _ _)).requestersKept
  · exact submit_requestersKept (h hdir)
  all_goals exact (answer_steady p _ s).requestersKept

/-- R30: an access that a barred requester may make reaches the window. -/
theorem judge_of_exception {p : PortId} {a : Presentation} (h : Passes12 s p a) (hx : s.barredException a = true)
    (hu : s.mgp.unit ≠ .softResetting) : s.judge p a = .window := by
  obtain ⟨_, aligned, _⟩ := barredException_iff.mp hx
  unfold State.barredException at hx
  simp only [Bool.and_eq_true] at hx
  obtain ⟨⟨_, inside⟩, _⟩ := hx
  rw [judge_of_passes h hu aligned, MapUnit.decode, if_pos inside]
  rfl

/-- R30, R43: only an ONLINE requester is refused for a reason that counts a fault. -/
theorem online_of_counted {p : PortId} {a : Presentation} {f : FaultReason} (h : s.judge p a = .refuse f)
    (hc : f.counted = true) : (s.port p).requester.state = .online := by
  have uncounted : ∀ {g : FaultReason}, s.judge p a = .refuse g → g.counted = true := fun k => by
    rw [h] at k
    cases k
    exact hc
  by_contra offline
  by_cases out : (s.port p).requester.state = .offline
  · exact absurd (uncounted (judge_of_offline out)) (by decide)
  cases hx : s.barredException a with
  | false =>
    have barred : (s.port p).requester.state = .quarantined ∨ (s.port p).requester.state = .lockedOut := by
      cases hs : (s.port p).requester.state <;> simp_all
    exact absurd (uncounted (judge_of_barred barred hx)) (by decide)
  | true =>
    by_cases hu : s.mgp.unit = .softResetting
    · exact absurd (uncounted (judge_of_resetting (.inr ⟨out, hx⟩) hu)) (by decide)
    · rw [judge_of_exception (.inr ⟨out, hx⟩) hx hu] at h
      cases h

theorem refuse_requestersKept {p : PortId} {a : Presentation} {f : FaultReason}
    (h : f.counted = true → (s.port p).requester.state = .online) : RequestersKept live s (s.refuse p a f) := by
  have recorded : Steady s (BusError p f a.addr a.dir (enabledCount a.be) s) := updPort_steady p rfl
  cases hc : f.counted with
  | false =>
    rw [refuse_of_uncounted hc]
    exact recorded.requestersKept
  | true =>
    rw [refuse_of_counted hc]
    exact recorded.requestersKept.trans (countFault_requestersKept ((recorded.state p).trans (h hc)))

theorem accept_steady (p : PortId) (a : Presentation) (region : Option RegionId) (lease : Option (LeaseId × Generation))
    (cycle : CycleFields) (s : State) : Steady s (s.accept p a region lease cycle) := by
  have counted : ∀ r : RegionId, Steady s (s.updRegion r fun d => { d with inFlight := d.inFlight + 1 }) := fun r =>
    updRegion_steady r id
  have put : ∀ (x : State) (id : LeaseId), Steady x (x.putLease id { x.lease id with inFlight := true }) := fun _ _ =>
    putLease_steady_of_same rfl rfl rfl
  unfold State.accept
  dsimp only
  refine .trans ?_ (updPort_steady p rfl)
  cases region with
  | none =>
    cases lease with
    | none => exact .refl s
    | some l => exact put s l.1
  | some r =>
    cases lease with
    | none => exact counted r
    | some l => exact (counted r).trans (put _ l.1)

theorem carryOut_requestersKept {p : PortId} (a : Presentation) (h : s.canTake p = true) :
    RequestersKept live s (s.carryOut p a) := by
  obtain ⟨_, noReset⟩ := canTake_iff.mp h
  unfold State.carryOut
  split
  · next judged => exact refuse_requestersKept (online_of_counted judged)
  · next judged => exact windowAccess_requestersKept fun hw => ⟨online_of_window_write judged hw, noReset⟩
  · exact (accept_steady p a _ _ _ s).requestersKept

theorem takeStanding_requestersKept (p : PortId) (s : State) : RequestersKept live s (s.takeStanding p) := by
  unfold State.takeStanding
  split
  · next a _ hc =>
    have taken : Steady s (s.updPort p fun q => { q with standing := none }) := updPort_steady p rfl
    refine taken.requestersKept.trans (carryOut_requestersKept a ?_)
    rw [canTake_iff] at hc ⊢
    rw [port_updPort_self]
    exact hc
  · exact .refl s

theorem present_requestersKept (p : PortId) (a : Presentation) (s : State) : RequestersKept live s (s.present p a) := by
  refine (takeStanding_requestersKept p s).trans ?_
  unfold State.present
  dsimp only
  split
  · next hc => exact carryOut_requestersKept a hc
  · exact (updPort_steady p rfl).requestersKept

theorem submitRow_requestersKept (code : Nat) (p : PortId) (be : BitVec 4) (data : Word) (s : State) :
    RequestersKept live s (s.submitRow code p be data) := by
  unfold State.submitRow
  split
  · exact present_requestersKept p _ s
  · exact .refl s

/-! ## Resets -/

/-- R181: after a soft reset nobody holds, and every fault count is 0. -/
theorem softResetReport_requestersKept (s : State) : RequestersKept live s s.softResetReport := by
  unfold State.softResetReport
  split
  · refine ⟨faultsContained_of_records rfl rfl fun one p ⟨quarantines, _⟩ => ?_, fun _ => ?_, fun p hp => ?_, .inl rfl⟩
    · rw [port_completeSoftReset]
      exact ⟨quarantines, fun _ => one, fun _ => rfl⟩
    · refine ⟨fun id held => ?_, fun w waits => nomatch waits⟩
      rw [lease_completeSoftReset] at held
      cases held
    · rw [port_completeSoftReset]
      exact if_pos hp
  · exact .refl s

/-- R152, R155: a requester is cleared in the course of a change of its port that keeps its quarantine count and LOCKED_OUT. -/
theorem clearing_requestersKept {p : PortId} {f : Port → Port}
    (hq : (f (s.port p)).requester.quarantines = (s.port p).requester.quarantines)
    (hl : (s.port p).requester.state = .lockedOut → (f (s.port p)).requester.state = .lockedOut) :
    RequestersKept live s (((s.updPort p f).clearRequest p).clearPort p) := by
  have cleared : Steady (s.updPort p f) ((s.updPort p f).clearRequest p) := clearRequest_steady p _
  have work := clearRequest_leaseWork p (s.updPort p f)
  have other : ∀ q, q ≠ p → ((s.updPort p f).port q) = s.port q := fun q hq => port_updPort_ne s f hq.symm
  have requester : ∀ q, ((((s.updPort p f).clearRequest p).clearPort p).port q).requester =
      if q = p then { (f (s.port p)).requester with faults := 0 } else (s.port q).requester := fun q => by
    rw [port_clearPort]
    split
    · next e =>
      subst e
      rw [if_pos rfl, work.port_cleared, port_updPort_self]
      rfl
    · next e => rw [if_neg (Ne.symm e), work.requester, other q (Ne.symm e)]
  refine ⟨faultsContained_of_records cleared.threshold cleared.limit fun one q fits => ?_, fun hs => ?_, fun q locked => ?_,
    .inl cleared.map⟩
  · rw [requester]
    split
    · next e =>
      subst e
      exact ⟨hq.trans_le fits.1, fun _ => one, fun _ => rfl⟩
    · exact fits
  · have held : HoldersOnline ((s.updPort p f).clearRequest p) :=
      holdersOnline_of_leave (s := s) (u := s.updPort p f) (out := fun q => q = p) rfl rfl
        (fun q hq => by rw [other q hq]; exact ⟨rfl, rfl⟩) cleared (fun _ _ => holds_clearRequest) hs
    have emptied : ∀ x : State, HoldersOnline x → HoldersOnline (x.clearPort p) := fun x hx =>
      holdersOnline_iff.mpr fun q r holds => by
        have may := holdersOnline_iff.mp hx q r (holds_of_eq rfl rfl holds)
        rw [MayHold, port_clearPort]
        split <;> exact may
    exact emptied _ held
  · rw [requester]
    split
    · next e =>
      subst e
      exact hl locked
    · exact locked

theorem assertReset_requestersKept (p : PortId) (s : State) : RequestersKept live s (s.assertReset p) := by
  unfold State.assertReset State.enterReset
  exact clearing_requestersKept rfl id

theorem deassertReset_requestersKept (p : PortId) (s : State) : RequestersKept live s (s.deassertReset p) :=
  .trans (updRequester_requestersKept p (fun _ h => h) id (fun _ => rfl) id) (takeStanding_requestersKept p _)

/-! ## Ends of accesses and the bus -/

theorem endAnswer_steady (p : PortId) (e : AccessEnd) (s : State) : Steady s (s.endAnswer p e) := by
  refine updPort_steady p ?_
  dsimp only
  split
  · rfl
  · cases e <;> rfl

theorem endRegion_steady (r : Option RegionId) (s : State) : Steady s (s.endRegion r) := by
  cases r with
  | none => exact .refl s
  | some r =>
    have counted : Steady s (s.updRegion r fun d => { d with inFlight := d.inFlight - 1 }) := updRegion_steady r id
    exact counted.trans (retireTest_steady r _)

theorem endLease_steady (l : Option (LeaseId × Generation)) (s : State) : Steady s (s.endLease l) := by
  cases l with
  | none => exact .refl s
  | some x => exact endUnder_steady x.1 x.2 s

theorem endBus_requestersKept (p : PortId) (s : State) : RequestersKept live s (s.endBus p) := by
  unfold State.endBus
  split
  · exact (setHold_steady none s).requestersKept.trans (softResetReport_requestersKept _)
  · exact .refl s

theorem endAccess_requestersKept (p : PortId) (e : AccessEnd) (s : State) : RequestersKept live s (s.endAccess p e) :=
  ((endAnswer_steady p e s).trans ((endRegion_steady _ _).trans (endLease_steady _ _))).requestersKept.trans
    (endBus_requestersKept p _)

theorem grantDecision_requestersKept (s : State) : RequestersKept live s s.grantDecision := by
  unfold State.grantDecision
  split
  · exact .refl s
  split
  · exact .refl s
  next l p _ =>
  have pointed : Steady s { s with bsq := { s.bsq with pointers := s.bsq.pointers.set l p } } :=
    .aside rfl rfl rfl rfl rfl
  dsimp only
  split
  · exact pointed.requestersKept.trans (endAccess_requestersKept p _ _)
  · exact (pointed.trans ((updAccess_steady p _ _).trans (setHold_steady _ _))).requestersKept

theorem cycleComplete_requestersKept (data : Word) (s : State) : RequestersKept live s (s.cycleComplete data) := by
  unfold State.cycleComplete
  split
  · exact .refl s
  next h _ =>
  have counted : ∀ (x : TargetId) (f : Target → Target) (g : AccessRecord → AccessRecord),
      Steady s ((s.updTarget x f).updAccess h.port g) :=
    fun x f g => (updTarget_steady x f s).trans (updAccess_steady _ g _)
  dsimp only
  split
  · exact (counted _ _ _).requestersKept.trans (endAccess_requestersKept _ _ _)
  split
  · exact (counted _ _ _).requestersKept.trans (endAccess_requestersKept _ _ _)
  · exact ((counted _ _ _).trans (setHold_steady _ _)).requestersKept

theorem cycleTimeout_requestersKept (s : State) : RequestersKept live s s.cycleTimeout := by
  have counted : ∀ (x : TargetId) (a : Word), Steady s (s.countTimeout x a) := fun x a => by
    unfold State.countTimeout
    dsimp only
    split <;> exact .aside rfl rfl rfl rfl rfl
  unfold State.cycleTimeout
  split
  · exact .refl s
  dsimp only
  split
  · exact .refl s
  · exact (counted _ _).requestersKept.trans (endAccess_requestersKept _ _ _)

theorem bclkPeriod_requestersKept (ready : Bool) (data : Word) (s : State) :
    RequestersKept live s (s.bclkPeriod ready data) := by
  unfold State.bclkPeriod
  split
  · exact .refl s
  dsimp only
  split
  · exact cycleComplete_requestersKept data s
  split
  · exact cycleTimeout_requestersKept s
  · exact (setHold_steady _ s).requestersKept

end Sys2Proof.Machine
end

section
/-! The requesters through host commands, registers and frames (R154, R155, R164, R166, R178), the one command that brings the map
LIVE (R2), and that every step keeps the laws of the requesters. -/

namespace Sys2Proof.Machine

open Sys2Proof.Safety Sys2Proof.Claims

variable {live : Prop} {s t : State}

/-! ## Host commands -/

/-- R2: the unit took GO_LIVE between `s` and `t`. -/
abbrev GoesLive (s t : State) : Prop := s.mgp.unit = .idle ∧ t.mgp.hostCmd = 1#4

theorem hostGoLive_requestersKept (h : live) : RequestersKept live s s.hostGoLive := by
  unfold State.hostGoLive
  split
  · exact (finish_steady _ _ s).requestersKept
  · next notLive =>
    have boot : s.mu.map = .boot := by cases hm : s.mu.map <;> simp_all
    exact ⟨id, id, fun _ => id, .inr ⟨h, boot, rfl⟩⟩

theorem hostCmd_hostGoLive (s : State) : s.hostGoLive.mgp.hostCmd = s.mgp.hostCmd := by
  unfold State.hostGoLive
  split <;> rfl

theorem hostGroupSet_steady (arg : BitVec 12) (s : State) : Steady s (s.hostGroupSet arg) := by
  unfold State.hostGroupSet
  split
  · exact finish_steady _ _ s
  dsimp only
  split
  · exact .aside rfl rfl rfl rfl rfl
  · exact finish_steady _ _ s

/-- R18: a commit keeps the state of a slot that serves. -/
theorem hostRegionCommit_steady (arg : BitVec 12) (s : State) : Steady s (s.hostRegionCommit arg) := by
  have committed : ∀ (r : RegionId) (staged : Region), Steady s (s.updRegion r fun old => installed old staged) :=
    fun r staged => updRegion_steady r fun h => by
      unfold installed
      rwa [Serving, if_neg (by rcases h with h | h <;> rw [h] <;> decide)]
  unfold State.hostRegionCommit
  split
  · exact finish_steady _ _ s
  split
  · exact finish_steady _ _ s
  · exact (committed _ _).trans (finish_steady _ _ _)

theorem hostRegionSuspend_steady (arg : BitVec 12) (s : State) : Steady s (s.hostRegionSuspend arg) := by
  have suspended : ∀ r : RegionId, Steady s (s.updRegion r fun d => { d with state := .suspended }) := fun r =>
    updRegion_steady r fun _ => .inr rfl
  unfold State.hostRegionSuspend
  split
  · exact finish_steady _ _ s
  split
  · exact (suspended _).trans (finish_steady _ _ _)
  · exact finish_steady _ _ s

theorem hostRegionResume_steady (arg : BitVec 12) (s : State) : Steady s (s.hostRegionResume arg) := by
  have resumed : ∀ r : RegionId, Steady s (s.updRegion r fun d => { d with state := .active }) := fun r =>
    updRegion_steady r fun _ => .inl rfl
  unfold State.hostRegionResume
  split
  · exact finish_steady _ _ s
  split
  · exact (resumed _).trans (.aside rfl rfl rfl rfl rfl)
  · exact finish_steady _ _ s

theorem hostRegionRetire_steady (arg : BitVec 12) (s : State) : Steady s (s.hostRegionRetire arg) := by
  unfold State.hostRegionRetire
  split
  · exact finish_steady _ _ s
  split
  · exact (retiringState_steady _ s).trans (retireTest_steady _ _)
  · exact finish_steady _ _ s

theorem hostLeaseRevoke_steady (arg : BitVec 12) (s : State) : Steady s (s.hostLeaseRevoke arg) := by
  unfold State.hostLeaseRevoke
  split
  · exact finish_steady _ _ s
  split
  · exact finish_steady _ _ s
  · exact (settle_steady s (revoke_steady _ _ s)).trans (finish_steady _ _ _)

theorem hostPurge_steady (arg : BitVec 12) (s : State) : Steady s (s.hostPurge arg) := by
  have emptied : ∀ (p : PortId) (u : State), Steady u (u.updPort p fun q => { q with board := Vector.replicate 4 none }) :=
    fun p _ => updPort_steady p rfl
  unfold State.hostPurge
  split
  · exact finish_steady _ _ s
  · exact (settle_steady s ((freeTombstones_steady _ s).trans (emptied _ _))).trans (finish_steady _ _ _)

/-- R154, R169: a requester that comes ONLINE has no faults, as no requester has that is not ONLINE. -/
theorem hostPortOnline_requestersKept (arg : BitVec 12) (s : State) : RequestersKept live s (s.hostPortOnline arg) := by
  unfold State.hostPortOnline
  split
  · exact (finish_steady _ _ s).requestersKept
  split
  · next p _ offline =>
    have online : RequestersKept live s (s.setRequester p .online) := by
      refine updRequester_requestersKept p (fun one ⟨quarantines, _, faultless⟩ => ?_) (fun _ => rfl) id fun k => ?_
      · have faults := faultless (by rw [offline]; decide)
        exact ⟨quarantines, fun _ => (faults.trans_lt one : (s.port p).requester.faults < _), fun _ => faults⟩
      · rw [offline] at k
        cases k
    exact online.trans (finish_steady _ _ _).requestersKept
  · exact (finish_steady _ _ s).requestersKept

/-- R155: a requester taken out of service is cleared. -/
theorem hostPortOffline_requestersKept (arg : BitVec 12) (s : State) :
    RequestersKept live s (s.hostPortOffline arg) := by
  unfold State.hostPortOffline
  split
  · exact (finish_steady _ _ s).requestersKept
  split
  · next p _ inService =>
    have offline : RequestersKept live s (s.takeOffline p) := by
      unfold State.takeOffline State.setRequester State.updRequester
      refine clearing_requestersKept rfl fun k => ?_
      rcases inService with h | h <;> rw [h] at k <;> cases k
    exact offline.trans (finish_steady _ _ _).requestersKept
  · exact (finish_steady _ _ s).requestersKept

theorem hostPortRestore_requestersKept (arg : BitVec 12) (s : State) :
    RequestersKept live s (s.hostPortRestore arg) := by
  unfold State.hostPortRestore
  split
  · exact (finish_steady _ _ s).requestersKept
  split
  · next p _ quarantined =>
    have restored : RequestersKept live s (s.updRequester p fun q => { q with state := .online, faults := 0 }) := by
      refine updRequester_requestersKept p (fun one ⟨quarantines, _⟩ => ⟨quarantines, fun _ => one, fun _ => rfl⟩)
        (fun _ => rfl) id fun k => ?_
      rw [quarantined] at k
      cases k
    exact restored.trans (finish_steady _ _ _).requestersKept
  · exact (finish_steady _ _ s).requestersKept

theorem hostTargetClear_steady (arg : BitVec 12) (s : State) : Steady s (s.hostTargetClear arg) := by
  unfold State.hostTargetClear
  split
  · exact finish_steady _ _ s
  · exact (updTarget_steady _ _ s).trans (finish_steady _ _ _)

theorem startSoftReset_requestersKept (s : State) : RequestersKept live s s.startSoftReset := by
  have begun : Steady s { s with mgp := { s.mgp with unit := .softResetting }, freeDraws := s.freeDraws + 1 } :=
    .aside rfl rfl rfl rfl rfl
  exact begun.requestersKept.trans
    ((RequestersKept.foldl (fun s p => endAccess_requestersKept p _ s) _ _).trans (softResetReport_requestersKept _))

/-- R178: of the host commands only GO_LIVE, code 1, changes the map's state. -/
theorem dispatch_requestersKept (code : BitVec 4) (arg : BitVec 12) (s : State) :
    RequestersKept (code = 1#4) s (s.dispatch code arg) := by
  unfold State.dispatch
  split
  · next h => exact hostGoLive_requestersKept (BitVec.eq_of_toNat_eq h)
  · exact (hostGroupSet_steady arg s).requestersKept
  · exact (hostRegionCommit_steady arg s).requestersKept
  · exact (hostRegionSuspend_steady arg s).requestersKept
  · exact (hostRegionResume_steady arg s).requestersKept
  · exact (hostRegionRetire_steady arg s).requestersKept
  · exact (hostLeaseRevoke_steady arg s).requestersKept
  · exact hostPortOnline_requestersKept arg s
  · exact hostPortOffline_requestersKept arg s
  · exact hostPortRestore_requestersKept arg s
  · exact (hostPurge_steady arg s).requestersKept
  · exact (hostTargetClear_steady arg s).requestersKept
  · exact startSoftReset_requestersKept s
  · exact (finish_steady _ _ s).requestersKept

theorem hostCommand_requestersKept (code : BitVec 4) (s : State) :
    RequestersKept (code = 1#4 ∧ GoesLive s (s.hostCommand code)) s (s.hostCommand code) := by
  by_cases idle : s.mgp.unit = .idle
  · have taken : ∀ {live}, RequestersKept live s (s.takeCode code) :=
      (Steady.aside rfl rfl rfl rfl rfl : Steady s (s.takeCode code)).requestersKept
    rw [hostCommand_of_idle idle]
    refine (taken.trans (dispatch_requestersKept code _ _)).mono fun goLive => ⟨goLive, idle, ?_⟩
    subst goLive
    exact hostCmd_hostGoLive _
  · unfold State.hostCommand
    rw [if_neg idle]
    exact (raise_steady _ s).requestersKept

/-! ## Registers and frames -/

theorem writeWindowBase_steady (v : Word) (s : State) : Steady s (s.writeWindowBase v) := by
  unfold State.writeWindowBase
  split
  · exact .aside rfl rfl rfl rfl rfl
  · exact .refl s

theorem writeCrcControl_steady (v : Word) (s : State) : Steady s (s.writeCrcControl v) := by
  unfold State.writeCrcControl
  split
  · exact .aside rfl rfl rfl rfl rfl
  · exact .aside rfl rfl rfl rfl rfl
  · exact .refl s

/-- R159, R164: every record is within the new bounds, those at the new threshold by their barring. -/
theorem faultsFit_weighedRequester {v : Word} {p : PortId} (h : (s.port p).requester.state ≠ .online →
    (s.port p).requester.faults = 0) : FaultsFit (field v 0 5) (field v 8 3) (s.weighedRequester v p) := by
  unfold State.weighedRequester
  split
  · exact faultsFit_barred (min_le_right _ _)
  · next below =>
    rw [atThreshold_weighed, not_and, not_le] at below
    exact ⟨min_le_right _ _, below, h⟩

/-- R164: a FAULT_CONFIG write leaves the standing of those it does not bar. -/
theorem weighedRequester_of_not_barred {v : Word} {p : PortId} (h : ¬(s.weighed v).atThreshold p = true) :
    s.weighedRequester v p = (s.port p).requester.lowered (field v 8 3) := if_neg h

/-- R168, R164: those that a FAULT_CONFIG write bars hold nothing after it. -/
theorem not_barred_of_holds {v : Word} (h : FaultConfigInRange v) {p : PortId} {r : RegionId}
    (holds : Holds (s.writeFaultConfig v) p r) : ¬(s.weighed v).atThreshold p = true := by
  intro barred
  rw [writeFaultConfig_of_some h barred] at holds
  rw [holds_barRequest holds] at barred
  cases barred

/-- R164: what LE does in a FAULT_CONFIG write changes no requester's standing. -/
theorem writeFaultConfig_steady {v : Word} (h : FaultConfigInRange v) (s : State) :
    Steady (s.weighedAndBarred v) (s.writeFaultConfig v) := by
  by_cases hn : ∀ p, (s.weighed v).atThreshold p ≠ true
  · rw [writeFaultConfig_of_none h hn]
    exact .refl _
  · obtain ⟨p, hp⟩ := not_forall_not.mp hn
    rw [writeFaultConfig_of_some h hp]
    exact barRequest_steady _ _

theorem writeFaultConfig_requestersKept (v : Word) (s : State) : RequestersKept live s (s.writeFaultConfig v) := by
  by_cases h : FaultConfigInRange v
  · have after := writeFaultConfig_steady h s
    have record := requester_writeFaultConfig h s
    have small : field v 8 3 ≤ 7 := Nat.le_of_lt_succ (v.extractLsb' 8 3).isLt
    obtain ⟨ports, flags, start⟩ := weighedAndBarred_portsAndFlags v s
    have ⟨one, most, least⟩ := h
    refine ⟨fun ⟨_, records⟩ => ?_, fun hs => ?_, fun p locked => ?_, .inl ?_⟩
    · rw [FaultsContained, after.threshold, after.limit, start]
      refine ⟨⟨one, most, least, small⟩, fun p => ?_⟩
      obtain ⟨_, _, faultless⟩ := records p
      rw [record]
      exact faultsFit_weighedRequester faultless
    · refine holdersOnline_of_leave (out := fun p => (s.weighed v).atThreshold p = true) (by rw [start]) (by rw [start])
        (fun p hp => ?_) after (fun _ _ => not_barred_of_holds h) hs
      rw [port_weighedAndBarred, weighedRequester_of_not_barred hp]
      exact ⟨rfl, rfl⟩
    · have notBarred : ¬(s.weighed v).atThreshold p = true := by simp [atThreshold_weighed, locked]
      rw [record, weighedRequester_of_not_barred notBarred]
      exact locked
    · rw [after.map, start]
  · rw [writeFaultConfig_of_out h]
    exact .refl s

/-- R158: the configuration of a port is no part of its requester's standing. -/
theorem writePortConfig_steady (p : PortId) (v : Word) (s : State) : Steady s (s.writePortConfig p v) := by
  unfold State.writePortConfig State.updRequester
  exact updPort_steady p rfl

/-- R175: of the registers only HOST_CMD, number 9, can bring the map LIVE. -/
theorem writeRegister_requestersKept (n : BitVec 7) (v : Word) (s : State) :
    RequestersKept (n = 9#7 ∧ v.extractLsb' 0 4 = 1#4 ∧ GoesLive s (s.writeRegister n v)) s (s.writeRegister n v) := by
  by_cases hn : n = 9#7
  · subst hn
    exact (hostCommand_requestersKept _ s).mono fun goes => ⟨rfl, goes⟩
  unfold State.writeRegister
  split
  case h_1 => exact (writeCrcControl_steady v s).requestersKept
  case h_2 => exact (writeWindowBase_steady v s).requestersKept
  case h_8 h => exact absurd (BitVec.eq_of_toNat_eq h) hn
  case h_16 => exact (writePortConfig_steady 0 v s).requestersKept
  case h_17 => exact (writePortConfig_steady 1 v s).requestersKept
  case h_18 => exact (writePortConfig_steady 2 v s).requestersKept
  case h_19 => exact (writePortConfig_steady 3 v s).requestersKept
  case h_20 => exact writeFaultConfig_requestersKept v s
  all_goals exact RequestersKept.aside rfl rfl rfl rfl rfl

theorem ncsFall_steady (s : State) : Steady s s.ncsFall := by
  unfold State.ncsFall
  split
  · exact .aside rfl rfl rfl rfl rfl
  · exact .refl s
  · exact .refl s

theorem sckRise_steady (sdi : Bool) (s : State) : Steady s (s.sckRise sdi) := by
  unfold State.sckRise
  split
  · exact .aside rfl rfl rfl rfl rfl
  · exact .refl s
  · exact .refl s

theorem sckFall_steady (s : State) : Steady s s.sckFall := by
  unfold State.sckFall
  split
  · exact .aside rfl rfl rfl rfl rfl
  · exact .refl s
  · exact .refl s

theorem takeFrame_requestersKept (bits : List Bool) (crc : CrcConfig) (s : State) :
    RequestersKept (GoesLive s (s.takeFrame bits crc)) s (s.takeFrame bits crc) := by
  unfold State.takeFrame
  split
  · exact (raise_steady _ s).requestersKept
  split
  · exact (raise_steady _ s).requestersKept
  split
  · exact (writeRegister_requestersKept _ _ s).mono fun ⟨_, _, goes⟩ => goes
  · exact .refl s

theorem ncsRise_requestersKept (s : State) : RequestersKept (GoesLive s s.ncsRise) s s.ncsRise := by
  have high : Steady s (s.setReceiver .high) := .aside rfl rfl rfl rfl rfl
  unfold State.ncsRise
  split
  · exact high.requestersKept.trans (takeFrame_requestersKept _ _ (s.setReceiver .high))
  · exact high.requestersKept
  · exact .refl s

/-- R172: the bits of a frame do not reach the host command unit. -/
theorem unit_ncsFall (s : State) : s.ncsFall.mgp.unit = s.mgp.unit := by
  unfold State.ncsFall
  split <;> rfl

theorem unit_sckRise (sdi : Bool) (s : State) : (s.sckRise sdi).mgp.unit = s.mgp.unit := by
  unfold State.sckRise
  split <;> rfl

theorem unit_sckFall (s : State) : s.sckFall.mgp.unit = s.mgp.unit := by
  unfold State.sckFall
  split <;> rfl

/-- R172: a low period of nCS up to its rise. -/
def State.shifted (bits : List Bool) (s : State) : State := bits.foldl (fun s b => (s.sckRise b).sckFall) s.ncsFall

theorem unit_shifted (bits : List Bool) (s : State) : (s.shifted bits).mgp.unit = s.mgp.unit :=
  List.foldlRecOn bits _ (motive := fun u : State => u.mgp.unit = s.mgp.unit) (unit_ncsFall s) fun u hu b _ => by
    rw [unit_sckFall, unit_sckRise, hu]

theorem shifted_steady (bits : List Bool) (s : State) : Steady s (s.shifted bits) :=
  (ncsFall_steady s).trans (Steady.foldl (fun s b => (sckRise_steady b s).trans (sckFall_steady _)) bits _)

theorem lowPeriod_requestersKept (bits : List Bool) (s : State) :
    RequestersKept (GoesLive s (s.lowPeriod bits)) s (s.lowPeriod bits) :=
  (shifted_steady bits s).requestersKept.trans
    ((ncsRise_requestersKept (s.shifted bits)).mono fun ⟨idle, code⟩ => ⟨(unit_shifted bits s).symm.trans idle, code⟩)

/-! ## A command -/

/-- R2: how a command can bring the map LIVE. -/
def BringsLive (c : Instr) (s t : State) : Prop :=
  s.mgp.unit = .idle ∧ t.mgp.hostCmd = 1#4 ∧
    (c = .goLive ∨ (∃ v, c = .registerWrite 9#7 v ∧ v.extractLsb' 0 4 = 1#4) ∨ ∃ bits, c = .ncsRise bits)

/-- Every command but the hardware resets keeps the laws, and LOCKED_OUT. -/
theorem exec_requestersKept {c : Instr} (hp : c ≠ .powerOnReset) (hn : c ≠ .nreset) (h : exec c s = .next t) :
    RequestersKept (BringsLive c s t) s t := by
  cases c <;> cases h
  case powerOnReset => exact absurd rfl hp
  case nreset => exact absurd rfl hn
  case rqrstAssertion p => exact assertReset_requestersKept p s
  case rqrstDeassertion p => exact deassertReset_requestersKept p s
  case tick => exact (tick_steady s).requestersKept
  case leaseExpiry id => exact (expireOne_steady id s).requestersKept
  case waitBudgetExpiry p tag => exact (timeOutOne_steady p tag s).requestersKept
  case busGrantDecision => exact grantDecision_requestersKept s
  case deviceCycleComplete data => exact cycleComplete_requestersKept data s
  case busTimeoutExpiry => exact cycleTimeout_requestersKept s
  case leaseDrainEnd id => exact (drainOne_steady id s).requestersKept
  case retireCompletion r => exact (retireTest_steady r s).requestersKept
  case softResetCompletion => exact softResetReport_requestersKept s
  case resumeGrantScan => exact (resumeScan_steady s).requestersKept
  case tableIndexWrite | eventFlagsWrite | eventEnableWrite => exact RequestersKept.aside rfl rfl rfl rfl rfl
  case windowBaseWrite v => exact (writeWindowBase_steady v s).requestersKept
  case faultConfigWrite v => exact writeFaultConfig_requestersKept v s
  case crcControlWrite v => exact (writeCrcControl_steady v s).requestersKept
  case registerWrite n v =>
    refine (writeRegister_requestersKept n v s).mono fun ⟨hn, hv, idle, code⟩ => ⟨idle, code, .inr (.inl ⟨v, ?_, hv⟩)⟩
    rw [hn]
  case ncsRise bits =>
    exact (lowPeriod_requestersKept bits s).mono fun ⟨idle, code⟩ => ⟨idle, code, .inr (.inr ⟨bits, rfl⟩)⟩
  case claim | renew | release | upgrade | downgrade | withdraw | query | lookup =>
    exact submitRow_requestersKept _ _ _ _ s
  case accessArrival | requestWrite | resultRead | portStatusRead | noticeRead => exact present_requestersKept _ _ s
  case goLive => exact (hostCommand_requestersKept 1#4 s).mono fun ⟨_, idle, code⟩ => ⟨idle, code, .inl rfl⟩
  all_goals exact (hostCommand_requestersKept _ s).mono fun ⟨code, _⟩ => absurd code (by decide)

/-- Settles O51: every command but the hardware resets keeps LOCKED_OUT, and the map's state but where GO_LIVE is taken. -/
theorem statesOnlyHardwareResetEnds : Obligations.StatesOnlyHardwareResetEnds := by
  intro s t c h
  refine ⟨fun p hp hn => (exec_requestersKept hp hn h).locked p, fun was now => ?_, fun was now => ?_⟩
  · by_contra notReset
    rw [not_or] at notReset
    rcases (exec_requestersKept notReset.1 notReset.2 h).map with same | ⟨_, boot, _⟩
    · rw [was, now] at same
      cases same
    · rw [was] at boot
      cases boot
  · have notReset : c ≠ .powerOnReset ∧ c ≠ .nreset := by
      constructor <;> rintro rfl <;> cases h <;> cases now
    rcases (exec_requestersKept notReset.1 notReset.2 h).map with same | ⟨brought, _⟩
    · rw [was, now] at same
      cases same
    · exact brought

/-! ## A step -/

/-- R140, R156: a hardware reset leaves every requester within the bounds of the reset values, and nobody that holds. -/
theorem hardwareReset_faultsContained (s : State) : FaultsContained s.hardwareReset := by
  have bounds : 1 ≤ Config.faultThresholdReset ∧ Config.faultThresholdReset ≤ 16 ∧ 1 ≤ Config.quarantineLimitReset ∧
      Config.quarantineLimitReset ≤ 7 := by decide
  refine ⟨bounds, fun p => ?_⟩
  have port : s.hardwareReset.port p = Port.reset p (s.port p).requester.inReset (s.port p).standing := mapTable_get _ _ p
  rw [port]
  exact ⟨Nat.zero_le _, fun _ => (bounds.1 : 0 < Config.faultThresholdReset), fun _ => rfl⟩

theorem hardwareReset_holdersOnline (s : State) : HoldersOnline s.hardwareReset := by
  refine ⟨fun id held => ?_, fun w waits => nomatch waits⟩
  rw [lease_hardwareReset] at held
  cases held

theorem exec_faultsContained {c : Instr} (h : exec c s = .next t) (hs : FaultsContained s) : FaultsContained t := by
  by_cases reset : c = .powerOnReset ∨ c = .nreset
  · rcases reset with rfl | rfl <;> cases h <;> exact hardwareReset_faultsContained s
  · rw [not_or] at reset
    exact (exec_requestersKept reset.1 reset.2 h).faults hs

theorem exec_holdersOnline {c : Instr} (h : exec c s = .next t) (hs : HoldersOnline s) : HoldersOnline t := by
  by_cases reset : c = .powerOnReset ∨ c = .nreset
  · rcases reset with rfl | rfl <;> cases h <;> exact hardwareReset_holdersOnline s
  · rw [not_or] at reset
    exact (exec_requestersKept reset.1 reset.2 h).holders hs

theorem pinEvent_requestersKept (e : PinEvent) (s : State) : RequestersKept live s (s.pinEvent e) := by
  cases e with
  | refclk => exact (refclkPeriod_steady s).requestersKept
  | bclk ready data => exact bclkPeriod_requestersKept ready data s
  | ncsFall => exact (ncsFall_steady s).requestersKept
  | sckRise sdi => exact (sckRise_steady sdi s).requestersKept
  | sckFall => exact (sckFall_steady s).requestersKept

theorem idleStep_requestersKept (s : State) : RequestersKept live s s.idleStep := by
  unfold State.idleStep
  split
  · exact (resumeScan_steady s).requestersKept
  split
  · exact takeStanding_requestersKept _ s
  split
  · exact grantDecision_requestersKept s
  split
  · exact .refl s
  · next e rest _ =>
    have seen : Steady s { s with inputs := rest } := .aside rfl rfl rfl rfl rfl
    exact seen.requestersKept.trans (pinEvent_requestersKept e _)

/-- A law that what the part does of itself keeps, that taking a command from the queue keeps, and that every command keeps. -/
theorem step_keeps {I : State → Prop} (idle : ∀ s, I s → I s.idleStep)
    (taken : ∀ (s : State) (rest : List Instr), I s → I { s with pending := rest })
    (command : ∀ (c : Instr) (s t : State), exec c s = .next t → I s → I t) (h : step s = .next t) (hs : I s) : I t := by
  unfold step at h
  split at h
  · cases h
    exact idle s hs
  · exact command _ _ _ h (taken s _ hs)

/-- Settles O55: a fault is counted of an ONLINE requester and bars it at the threshold; every other event leaves the counts,
lowers them, or sets them to 0. -/
theorem faultsStayContained : Obligations.FaultsStayContained := fun _ _ hs h =>
  step_keeps (fun s => (idleStep_requestersKept (live := False) s).faults) (fun _ _ hs => hs)
    (fun _ _ _ => exec_faultsContained) h hs

/-- Settles O56: a claim comes from an ONLINE requester, a scan serves waiters only, and a requester or a slot that leaves
service takes with it what was held. -/
theorem onlyOnlineRequestersHold : Obligations.OnlyOnlineRequestersHold := fun _ _ hs h =>
  step_keeps (fun s => (idleStep_requestersKept (live := False) s).holders) (fun _ _ hs => hs)
    (fun _ _ _ => exec_holdersOnline) h hs

end Sys2Proof.Machine
end

section
/-! The host command unit (R178, R181, R189): the codes it rejects and the arguments it finds out of range, and the completion of
a soft reset. -/

namespace Sys2Proof.Machine

open Sys2Proof.Safety Sys2Proof.Claims

/-! ## Codes and arguments (R178, R189) -/

/-- R178: the row of each host command is the applied write of its code. -/
theorem exec_hostRow {code : Fin 14} (h : 1 ≤ code) (s : State) :
    exec (hostRow code) s = .next (s.hostCommand (BitVec.ofNat 4 code.val)) := by
  fin_cases code
  · exact absurd h (by decide)
  all_goals rfl

theorem exec_hostCmdWrite (v : Word) (s : State) :
    exec (.registerWrite 9#7 v) s = .next (s.hostCommand (v.extractLsb' 0 4)) := rfl

theorem hostCommand_of_running {s : State} (hu : s.mgp.unit ≠ .idle) (code : BitVec 4) :
    s.hostCommand code = s.raise .cmdReject :=
  if_neg hu

/-- R178: what the completion of a command just taken leaves. -/
theorem finish_takeCode (code : BitVec 4) (result : HostResult) (s : State) :
    (s.takeCode code).finish code result = { s with mgp := Completed code result s.mgp } := rfl

/-- R189: codes 0, 14 and 15 name no command. -/
theorem dispatch_of_undefined {code : BitVec 4} (h : code = 0#4 ∨ 14 ≤ code.toNat) (arg : BitVec 12) (s : State) :
    s.dispatch code arg = s.finish code .badArg := by
  have : ¬(1 ≤ code.toNat ∧ code.toNat ≤ 13) := by
    rintro ⟨low, high⟩
    rcases h with rfl | h
    · exact absurd low (by decide)
    · omega
  unfold State.dispatch
  split
  case h_14 => rfl
  all_goals omega

/-- Table 10-9: the number of things the numbered argument of a host command chooses among. -/
def argLimit (code : Fin 14) : Nat :=
  if code.val = 2 ∨ (8 ≤ code.val ∧ code.val ≤ 11) then 4 else if code.val = 12 then 8
  else if code.val = 7 then 64 else 32

/-- R189: a command that takes a numbered argument completes BAD_ARG where the argument is out of range. -/
theorem dispatch_of_large {code : Fin 14} (h2 : 2 ≤ code) (h13 : code ≠ 13) {arg : BitVec 12}
    (large : argLimit code ≤ (arg.extractLsb' 0 8).toNat) (s : State) :
    s.dispatch (BitVec.ofNat 4 code.val) arg = s.finish (BitVec.ofNat 4 code.val) .badArg := by
  have none : ∀ n ≤ argLimit code, argFin arg n = none := fun n hn => argFin_of_le (hn.trans large)
  fin_cases code
  · exact absurd h2 (by decide)
  · exact absurd h2 (by decide)
  on_goal 12 => exact absurd rfl h13
  all_goals
    simp (disch := decide) [State.dispatch, State.hostGroupSet, State.hostRegionCommit, State.hostRegionSuspend,
      State.hostRegionResume, State.hostRegionRetire, State.hostLeaseRevoke, State.hostPortOnline, State.hostPortOffline,
      State.hostPortRestore, State.hostPurge, State.hostTargetClear, none]

/-- Settles O32: by the unit's state, and for an idle unit by what its dispatch makes of the code. -/
theorem runningUnitRejects : Obligations.RunningUnitRejects := by
  intro s code v rejected range
  refine ⟨fun hu => ?_, fun hu => ⟨fun undefined => ?_, fun h2 h13 large => ?_⟩⟩
  · have reject : ∀ c, Host.Outcome.next (s.hostCommand c) = rejected := fun c =>
      congrArg _ (hostCommand_of_running hu c)
    exact ⟨reject _, fun h1 => (exec_hostRow h1 s).trans (reject _)⟩
  · rw [exec_hostCmdWrite, hostCommand_of_idle hu, dispatch_of_undefined undefined, finish_takeCode]
  · rw [exec_hostRow (le_trans (by decide) h2), hostCommand_of_idle hu,
      dispatch_of_large h2 h13 large, finish_takeCode]

/-! ## The completion of a soft reset (R181) -/

theorem noneWaiting_iff {s : State} : s.noneWaiting = true ↔ ∀ p : PortId, (s.port p).access.state ≠ .waitingBus := by
  simp only [State.noneWaiting, List.all_eq_true, mem_allPorts, forall_const, bne_iff_ne]

/-- R181: a soft reset runs, and nothing keeps it from completing. -/
def SoftResetDue (s : State) : Prop :=
  s.mgp.unit = .softResetting ∧ s.bsq.hold = none ∧ ∀ p : PortId, (s.port p).access.state ≠ .waitingBus

theorem softResetReport_of_due {s : State} (h : SoftResetDue s) : s.softResetReport = s.completeSoftReset :=
  let ⟨unit, hold, waiting⟩ := h
  if_pos ⟨unit, hold, noneWaiting_iff.mpr waiting⟩

theorem softResetReport_of_not_due {s : State} (h : ¬SoftResetDue s) : s.softResetReport = s :=
  if_neg fun ⟨unit, hold, waiting⟩ => h ⟨unit, hold, noneWaiting_iff.mp waiting⟩

/-- Settles O30: each table record by record; the rest is what the completion writes, or leaves. -/
theorem softResetCompletes : Obligations.SoftResetCompletes := by
  intro s due
  refine ⟨fun h => congrArg _ (softResetReport_of_not_due h), fun h => ?_⟩
  have ⟨_, free, _⟩ := h
  exact ⟨s.completeSoftReset, congrArg _ (softResetReport_of_due h), lease_completeSoftReset s, rfl, rfl, rfl, rfl, rfl,
    port_completeSoftReset s, region_completeSoftReset s, rfl, rfl, rfl, target_completeSoftReset s,
    pointer_completeSoftReset s, free, rfl, rfl, rfl, rfl, rfl⟩

end Sys2Proof.Machine
end

section
/-! Snapshots (R177, R190): the words of Table 10-10 field by field with their reserved bits, and the record that a TABLE_INDEX
write takes. -/

namespace Sys2Proof.Machine

open Sys2Proof.Safety Sys2Proof.Claims

/-! ## Masks over the fields of a word -/

theorem or_and_mask (a b m : Word) : (a ||| b) &&& m = (a &&& m) ||| (b &&& m) := by
  rw [BitVec.and_comm, BitVec.and_or_distrib_left, BitVec.and_comm m, BitVec.and_comm m]

theorem field_and (a b : Word) (lo len : Nat) : field (a &&& b) lo len = field a lo len &&& field b lo len := by
  simp only [field, BitVec.extractLsb'_and, BitVec.toNat_and]

theorem testBit_field (w : Word) {lo len i : Nat} (h : i < len) : (field w lo len).testBit i = w.getLsbD (lo + i) := by
  rw [field, ← BitVec.getLsbD, BitVec.getLsbD_extractLsb', decide_eq_true h, Bool.true_and]

/-- A field under a mask that has no bit of it. -/
theorem place_and_eq_zero {n lo len : Nat} {m : Word} (h : field m lo len = 0) : place n lo len &&& m = 0#32 := by
  apply BitVec.eq_of_getLsbD_eq
  intro i _
  rw [BitVec.getLsbD_and, getLsbD_place, BitVec.getLsbD_zero]
  by_cases hi : lo ≤ i ∧ i - lo < len
  · obtain ⟨low, high⟩ := hi
    have clear := testBit_field (lo := lo) m high
    rw [h, Nat.zero_testBit, Nat.add_sub_cancel' low] at clear
    rw [← clear, Bool.and_false]
  · by_cases low : lo ≤ i
    · have : ¬i - lo < len := fun high => hi ⟨low, high⟩
      simp [this]
    · simp [low]

theorem placeBit_and_eq_zero {b : Bool} {lo : Nat} {m : Word} (h : field m lo 1 = 0) : placeBit b lo &&& m = 0#32 :=
  place_and_eq_zero h

/-- A field under a mask that has all of its bits. -/
theorem place_and_eq_self {n lo len : Nat} {m : Word} (h : field (~~~m) lo len = 0) :
    place n lo len &&& m = place n lo len := by
  have outside : place n lo len &&& ~~~m = 0#32 := place_and_eq_zero h
  calc place n lo len &&& m
      = (place n lo len &&& m) ||| (place n lo len &&& ~~~m) := by rw [outside, BitVec.or_zero]
    _ = place n lo len := by rw [← BitVec.and_or_distrib_left, BitVec.or_not_self, BitVec.and_allOnes]

theorem placeBit_and_eq_self {b : Bool} {lo : Nat} {m : Word} (h : field (~~~m) lo 1 = 0) :
    placeBit b lo &&& m = placeBit b lo :=
  place_and_eq_self h

/-! ## Values that fit their fields -/

theorem LeaseState.code_lt (x : LeaseState) : x.code < 2 ^ 2 := by cases x <;> decide

theorem RegionState.code_lt (x : RegionState) : x.code < 2 ^ 2 := by cases x <;> decide

theorem Mode.code_lt (x : Mode) : x.code < 2 ^ 1 := by cases x <;> decide

theorem Rights.code_lt (x : Rights) : x.code < 2 ^ 2 := by cases x <;> decide

theorem Policy.code_lt (x : Policy) : x.code < 2 ^ 2 := by cases x <;> decide

theorem PortWidth.code_lt (x : PortWidth) : x.code < 2 ^ 2 := by cases x <;> decide

theorem ReadyMode.code_lt (x : ReadyMode) : x.code < 2 ^ 1 := by cases x <;> decide

theorem AccessState.code_lt (x : AccessState) : x.code < 2 ^ 2 := by cases x <;> decide

theorem TargetState.code_lt (x : TargetState) : x.code < 2 ^ 1 := by cases x <;> decide

theorem drainEndCode_lt (x : Option DrainEnd) : drainEndCode x < 2 ^ 2 := by
  cases x with
  | none => decide
  | some x => cases x <;> decide

/-! ## Words of the snapshots (Table 10-10) -/

theorem snapshotOf_first (d0 d1 d2 d3 : Word) : (snapshotOf d0 d1 d2 d3)[0] = d0 := rfl

theorem snapshotOf_third (d0 d1 d2 d3 : Word) : (snapshotOf d0 d1 d2 d3)[2] = d2 := rfl

/-- R190: the last word holds the marker, here as a field of its own. -/
theorem snapshotOf_last (d0 d1 d2 d3 : Word) : (snapshotOf d0 d1 d2 d3)[3] = d3 ||| place 1 31 1 := rfl

theorem marker_eq : 0x80000000#32 = place 1 31 1 := rfl

theorem groupSnapshot_layout (g : Group) : GroupLayout g (groupSnapshot g) := by
  have word : let w := (groupSnapshot g)[0]
      field w 0 1 = g.valid.toNat ∧ field w 8 6 = g.exp.toNat ∧ w &&& 0xFFFFC0FE#32 = 0#32 := by
    simp (disch := decide) only [groupSnapshot, snapshotOf_first, field_or, field_place_self, field_place_disjoint,
      field_placeBit_self, field_placeBit_disjoint, or_and_mask, place_and_eq_zero, placeBit_and_eq_zero, Nat.or_zero,
      Nat.zero_or, BitVec.or_zero, true_and, and_true]
    exact Nat.mod_eq_of_lt g.exp.isLt
  obtain ⟨valid, exp, reserved⟩ := word
  exact ⟨valid, exp, reserved, rfl, rfl, rfl⟩

/-- Table 10-9: the first staging word. -/
theorem regionWord0_fields (r : Region) :
    field (regionWord0 r) 0 6 = r.exp.toNat ∧ regionWord0 r &&& 0xFFFFFF00#32 = r.offset &&& 0xFFFFFF00#32 ∧
    regionWord0 r &&& 0xC0#32 = 0#32 := by
  have low : field 0xFFFFFF00#32 0 6 = 0 := by decide
  have reserved : 0xFFFFFF00#32 &&& 0xC0#32 = 0#32 := by decide
  unfold regionWord0
  refine ⟨?_, ?_, ?_⟩
  · rw [field_or, field_place_self (by decide), field_and, low, Nat.and_zero, Nat.or_zero,
      Nat.mod_eq_of_lt r.exp.isLt]
  · rw [or_and_mask, place_and_eq_zero (by decide), BitVec.zero_or, BitVec.and_assoc, BitVec.and_self]
  · rw [or_and_mask, place_and_eq_zero (by decide), BitVec.zero_or, BitVec.and_assoc, reserved, BitVec.and_zero]

/-- Table 10-9: the cycle fields and the policy in the second staging word. -/
theorem regionWord1_fields (r : Region) :
    let w := regionWord1 r
    field w 0 3 = r.cycle.target.val ∧ field w 4 2 = r.cycle.width.code ∧ field w 8 4 = r.cycle.waits.toNat ∧
    field w 12 1 = r.cycle.ready.code ∧ field w 16 2 = r.policy.code ∧ w &&& 0x00FCE0C8#32 = 0#32 := by
  unfold regionWord1
  simp (disch := decide) only [field_or, field_place_self, field_place_disjoint, or_and_mask, place_and_eq_zero,
    Nat.or_zero, Nat.zero_or, BitVec.or_zero, and_true]
  exact ⟨Nat.mod_eq_of_lt r.cycle.target.isLt, Nat.mod_eq_of_lt (PortWidth.code_lt _), Nat.mod_eq_of_lt r.cycle.waits.isLt,
    Nat.mod_eq_of_lt (ReadyMode.code_lt _), Nat.mod_eq_of_lt (Policy.code_lt _)⟩

/-- Table 10-9: the rights of each requester in the second staging word. -/
theorem regionWord1_rights (r : Region) (p : PortId) :
    field (regionWord1 r) (24 + 2 * p.val) 2 = (r.rights[p]).code := by
  unfold regionWord1
  fin_cases p
  all_goals
    simp (disch := decide) only [field_or, field_place_self, field_place_disjoint, Nat.or_zero, Nat.zero_or]
    exact Nat.mod_eq_of_lt (Rights.code_lt _)

/-- Table 10-9: the third staging word. -/
theorem regionWord2_fields (r : Region) :
    let w := regionWord2 r
    field w 0 16 = r.term % 65536 ∧ field w 16 3 = r.share % 8 ∧ field w 20 4 = r.earlyLimit % 16 ∧
    field w 24 1 = r.yield.toNat ∧ w &&& 0xFE080000#32 = 0#32 := by
  unfold regionWord2
  simp (disch := decide) only [field_or, field_place_self, field_place_disjoint, field_placeBit_self,
    field_placeBit_disjoint, or_and_mask, place_and_eq_zero, placeBit_and_eq_zero, Nat.or_zero, Nat.zero_or,
    BitVec.or_zero, and_true]
  exact ⟨rfl, rfl, rfl⟩

/-- Table 10-10, R23: the state and the in-flight count of a slot, with the marker. -/
theorem regionSnapshot_last (r : Region) :
    let w := (regionSnapshot r)[3]
    field w 0 2 = r.state.code ∧ field w 2 3 = r.inFlight % 8 ∧ w &&& 0xFFFFFFE0#32 = 0x80000000#32 := by
  simp (disch := decide) only [regionSnapshot, snapshotOf_last, marker_eq, field_or, field_place_self,
    field_place_disjoint, or_and_mask, place_and_eq_zero, place_and_eq_self, Nat.or_zero, Nat.zero_or,
    BitVec.zero_or, BitVec.or_zero, and_true]
  exact ⟨Nat.mod_eq_of_lt (RegionState.code_lt _), rfl⟩

theorem regionSnapshot_layout (r : Region) : RegionLayout r (regionSnapshot r) := by
  obtain ⟨target, width, waits, ready, policy, reserved⟩ := regionWord1_fields r
  exact ⟨regionWord0_fields r, ⟨target, width, waits, ready, policy, regionWord1_rights r, reserved⟩,
    regionWord2_fields r, regionSnapshot_last r⟩

/-- Table 10-10: DATA0 of a LEASES snapshot. -/
theorem leaseSnapshot_first (l : Lease) :
    let w := (leaseSnapshot l)[0]
    field w 0 2 = l.state.code ∧ field w 2 4 = l.generation.toNat ∧ field w 6 2 = l.holder.val ∧
    field w 8 1 = l.mode.code ∧ field w 9 6 = l.range.exp.toNat ∧ field w 16 3 = reasonCode l.reason ∧
    field w 20 4 = l.faults % 16 ∧ field w 24 5 = l.region.val ∧ w &&& 0xE0088000#32 = 0#32 := by
  simp (disch := decide) only [leaseSnapshot, snapshotOf_first, queryWord, field_or, field_place_self,
    field_place_disjoint, or_and_mask, place_and_eq_zero, Nat.or_zero, Nat.zero_or, BitVec.or_zero, and_true]
  exact ⟨Nat.mod_eq_of_lt (LeaseState.code_lt _), Nat.mod_eq_of_lt l.generation.isLt, Nat.mod_eq_of_lt l.holder.isLt,
    Nat.mod_eq_of_lt (Mode.code_lt _), Nat.mod_eq_of_lt l.range.exp.isLt, Nat.mod_eq_of_lt (reasonCode_lt _), rfl,
    Nat.mod_eq_of_lt l.region.isLt⟩

/-- Table 10-10: DATA3 of a LEASES snapshot. -/
theorem leaseSnapshot_last (l : Lease) :
    let w := (leaseSnapshot l)[3]
    field w 0 2 = l.priority.val ∧ field w 2 1 = l.inFlight.toNat ∧ field w 3 2 = drainEndCode l.drainEnd ∧
    w &&& 0xFFFFFFE0#32 = 0x80000000#32 := by
  simp (disch := decide) only [leaseSnapshot, snapshotOf_last, marker_eq, field_or, field_place_self,
    field_place_disjoint, field_placeBit_self, field_placeBit_disjoint, or_and_mask, place_and_eq_zero,
    placeBit_and_eq_zero, place_and_eq_self, Nat.or_zero, Nat.zero_or, BitVec.or_zero, BitVec.zero_or, true_and, and_true]
  exact ⟨Nat.mod_eq_of_lt l.priority.isLt, Nat.mod_eq_of_lt (drainEndCode_lt _)⟩

/-- Two counts of 16 bits that share a word. -/
theorem countPair_fields (low high : Nat) :
    field (place low 0 16 ||| place high 16 16) 0 16 = low % 65536 ∧
    field (place low 0 16 ||| place high 16 16) 16 16 = high % 65536 := by
  simp (disch := decide) only [field_or, field_place_self, field_place_disjoint, Nat.or_zero, Nat.zero_or]
  exact ⟨rfl, rfl⟩

theorem leaseSnapshot_layout (l : Lease) : LeaseLayout l (leaseSnapshot l) := by
  obtain ⟨remaining, term⟩ := countPair_fields l.remaining l.term
  exact ⟨leaseSnapshot_first l, rfl, remaining, term, leaseSnapshot_last l⟩

/-- Table 10-10: DATA0 of a WAITERS snapshot. -/
theorem waiterSnapshot_first (x : Waiter) :
    let w := (waiterSnapshot x)[0]
    field w 0 2 = x.requester.val ∧ field w 2 2 = x.tag.val ∧ field w 4 5 = x.region.val ∧ field w 9 1 = x.mode.code ∧
    field w 10 2 = x.priority.val ∧ field w 12 6 = x.range.exp.toNat ∧ w &&& 0xFFFC0000#32 = 0#32 := by
  simp (disch := decide) only [waiterSnapshot, snapshotOf_first, field_or, field_place_self, field_place_disjoint,
    or_and_mask, place_and_eq_zero, Nat.or_zero, Nat.zero_or, BitVec.or_zero, and_true]
  exact ⟨Nat.mod_eq_of_lt x.requester.isLt, Nat.mod_eq_of_lt x.tag.isLt, Nat.mod_eq_of_lt x.region.isLt,
    Nat.mod_eq_of_lt (Mode.code_lt _), Nat.mod_eq_of_lt x.priority.isLt, Nat.mod_eq_of_lt x.range.exp.isLt⟩

theorem waiterSnapshot_last (x : Waiter) :
    let w := (waiterSnapshot x)[3]
    field w 0 16 = x.arrival.toNat ∧ w &&& 0xFFFF0000#32 = 0x80000000#32 := by
  simp (disch := decide) only [waiterSnapshot, snapshotOf_last, marker_eq, field_or, field_place_self,
    field_place_disjoint, or_and_mask, place_and_eq_zero, place_and_eq_self, Nat.or_zero, BitVec.zero_or, and_true]
  exact Nat.mod_eq_of_lt x.arrival.isLt

theorem waiterSnapshot_layout (x : Waiter) : WaiterLayout x (waiterSnapshot x) := by
  obtain ⟨term, budget⟩ := countPair_fields x.term x.budget
  exact ⟨waiterSnapshot_first x, rfl, term, budget, waiterSnapshot_last x⟩

/-- Table 10-10: DATA0 of a TARGETS snapshot. -/
theorem targetSnapshot_first (t : Target) :
    let w := (targetSnapshot t)[0]
    field w 0 1 = t.state.code ∧ field w 4 4 = t.consecutive % 16 ∧ field w 8 4 = t.limit % 16 ∧
    field w 16 16 = t.total % 65536 ∧ w &&& 0x0000F00E#32 = 0#32 := by
  simp (disch := decide) only [targetSnapshot, snapshotOf_first, field_or, field_place_self, field_place_disjoint,
    or_and_mask, place_and_eq_zero, Nat.or_zero, Nat.zero_or, BitVec.or_zero, and_true]
  exact ⟨Nat.mod_eq_of_lt (TargetState.code_lt _), rfl, rfl, rfl⟩

theorem targetSnapshot_layout (t : Target) : TargetLayout t (targetSnapshot t) := by
  obtain ⟨state, consecutive, limit, total, reserved⟩ := targetSnapshot_first t
  exact ⟨state, consecutive, limit, total, reserved, rfl, rfl, rfl⟩

/-! ## The PORTS snapshot -/

/-- Table 10-10: PORT_STATUS leaves bit 7 clear, and the in-reset flag stands there. -/
theorem portSnapshot_first (p : PortId) (q : Port) :
    let w := (portSnapshot p q)[0]
    field w 7 1 = q.requester.inReset.toNat ∧ w &&& 0xFFFFFF7F#32 = portStatusWord p q := by
  simp (disch := decide) only [portSnapshot, snapshotOf_first, portStatusWord, field_or, field_place_disjoint,
    field_placeBit_self, field_placeBit_disjoint, or_and_mask, place_and_eq_self, placeBit_and_eq_self,
    placeBit_and_eq_zero, Nat.zero_or, BitVec.or_zero, and_self]

/-- DATA2 [11:6] of a PORTS snapshot: the region of an access, with its presence bit. -/
def regionPresence : Option RegionId → Word
  | none => 0#32
  | some r => place r.val 6 5 ||| place 1 11 1

/-- DATA2 [22:12] of a PORTS snapshot: the lease of an access, with its presence bit. -/
def leasePresence : Option (LeaseId × Generation) → Word
  | none => 0#32
  | some (id, gen) => place id.val 12 6 ||| place gen.toNat 18 4 ||| place 1 22 1

theorem accessWord_eq (a : AccessRecord) :
    accessWord a = place a.state.code 0 2 ||| place (directionCode a.dir) 2 1 ||| place a.width 3 3 |||
      regionPresence a.region ||| leasePresence a.lease ||| place a.cycle.target.val 23 3 |||
      place a.cycle.width.code 26 2 := by
  unfold accessWord regionPresence leasePresence
  cases a.region <;> cases a.lease <;> rfl

theorem field_regionPresence_disjoint {x : Option RegionId} {lo len : Nat} (h : lo + len ≤ 6 ∨ 12 ≤ lo) :
    field (regionPresence x) lo len = 0 := by
  cases x with
  | none => exact field_zero lo len
  | some r =>
    unfold regionPresence
    simp (disch := omega) only [field_or, field_place_disjoint, Nat.or_zero]

theorem field_leasePresence_disjoint {x : Option (LeaseId × Generation)} {lo len : Nat} (h : lo + len ≤ 12 ∨ 23 ≤ lo) :
    field (leasePresence x) lo len = 0 := by
  cases x with
  | none => exact field_zero lo len
  | some l =>
    unfold leasePresence
    simp (disch := omega) only [field_or, field_place_disjoint, Nat.or_zero]

theorem regionPresence_reserved (x : Option RegionId) : regionPresence x &&& 0xF0000000#32 = 0#32 := by
  cases x with
  | none => rfl
  | some r =>
    simp (disch := decide) only [regionPresence, or_and_mask, place_and_eq_zero, BitVec.or_zero]

theorem leasePresence_reserved (x : Option (LeaseId × Generation)) : leasePresence x &&& 0xF0000000#32 = 0#32 := by
  cases x with
  | none => rfl
  | some l =>
    simp (disch := decide) only [leasePresence, or_and_mask, place_and_eq_zero, BitVec.or_zero]

/-- Table 10-10: DATA2 of a PORTS snapshot, but for the region and the lease. -/
theorem accessWord_fields (a : AccessRecord) :
    let w := accessWord a
    field w 0 2 = a.state.code ∧ field w 2 1 = directionCode a.dir ∧ field w 3 3 = a.width % 8 ∧
    field w 23 3 = a.cycle.target.val ∧ field w 26 2 = a.cycle.width.code ∧ w &&& 0xF0000000#32 = 0#32 := by
  rw [accessWord_eq]
  simp (disch := decide) only [field_or, field_place_self, field_place_disjoint, field_regionPresence_disjoint,
    field_leasePresence_disjoint, or_and_mask, place_and_eq_zero, regionPresence_reserved, leasePresence_reserved,
    Nat.or_zero, Nat.zero_or, BitVec.or_zero, and_true]
  exact ⟨Nat.mod_eq_of_lt (AccessState.code_lt _), Nat.mod_eq_of_lt (directionCode_lt _), rfl,
    Nat.mod_eq_of_lt a.cycle.target.isLt, Nat.mod_eq_of_lt (PortWidth.code_lt _)⟩

/-- A field of DATA2 that lies within the bits of the region. -/
theorem field_accessWord_region (a : AccessRecord) {lo len : Nat} (low : 6 ≤ lo) (high : lo + len ≤ 12) :
    field (accessWord a) lo len = field (regionPresence a.region) lo len := by
  rw [accessWord_eq]
  simp (disch := omega) only [field_or, field_place_disjoint, field_leasePresence_disjoint, Nat.or_zero, Nat.zero_or]

/-- A field of DATA2 that lies within the bits of the lease. -/
theorem field_accessWord_lease (a : AccessRecord) {lo len : Nat} (low : 12 ≤ lo) (high : lo + len ≤ 23) :
    field (accessWord a) lo len = field (leasePresence a.lease) lo len := by
  rw [accessWord_eq]
  simp (disch := omega) only [field_or, field_place_disjoint, field_regionPresence_disjoint, Nat.or_zero, Nat.zero_or]

theorem regionPresence_some (r : RegionId) :
    field (regionPresence (some r)) 6 5 = r.val ∧ field (regionPresence (some r)) 11 1 = 1 := by
  simp (disch := decide) only [regionPresence, field_or, field_place_self, field_place_disjoint, Nat.or_zero, Nat.zero_or]
  exact ⟨Nat.mod_eq_of_lt r.isLt, rfl⟩

theorem leasePresence_some (id : LeaseId) (g : Generation) :
    let w := leasePresence (some (id, g))
    field w 12 6 = id.val ∧ field w 18 4 = g.toNat ∧ field w 22 1 = 1 := by
  simp (disch := decide) only [leasePresence, field_or, field_place_self, field_place_disjoint, Nat.or_zero, Nat.zero_or]
  exact ⟨Nat.mod_eq_of_lt id.isLt, Nat.mod_eq_of_lt g.isLt, rfl⟩

/-- Table 10-10: DATA3 of a PORTS snapshot. -/
theorem portSnapshot_last (p : PortId) (q : Port) :
    let w := (portSnapshot p q)[3]
    field w 0 4 = q.access.cycle.waits.toNat ∧ field w 4 1 = q.access.cycle.ready.code ∧
    field w 5 3 = q.access.cyclesDone % 8 ∧ field w 8 1 = q.access.orphaned.toNat ∧
    field w 10 2 = q.requester.busPriority.val ∧ field w 12 2 = q.requester.claimCap.val ∧
    w &&& 0xFFFFC200#32 = 0x80000000#32 := by
  simp (disch := decide) only [portSnapshot, snapshotOf_last, marker_eq, portWord, field_or, field_place_self,
    field_place_disjoint, field_placeBit_self, field_placeBit_disjoint, or_and_mask, place_and_eq_zero,
    placeBit_and_eq_zero, place_and_eq_self, Nat.or_zero, Nat.zero_or, BitVec.or_zero, BitVec.zero_or, true_and, and_true]
  exact ⟨Nat.mod_eq_of_lt q.access.cycle.waits.isLt, Nat.mod_eq_of_lt (ReadyMode.code_lt _), rfl,
    Nat.mod_eq_of_lt q.requester.busPriority.isLt, Nat.mod_eq_of_lt q.requester.claimCap.isLt⟩

theorem portSnapshot_layout (p : PortId) (q : Port) : PortLayout p q (portSnapshot p q) := by
  obtain ⟨state, dir, width, target, portWidth, reserved⟩ := accessWord_fields q.access
  refine ⟨portSnapshot_first p q, rfl, ⟨state, dir, width, fun none => ?_, fun r some => ?_, fun none => ?_,
    fun id g some => ?_, target, portWidth, reserved⟩, portSnapshot_last p q⟩
  · exact (field_accessWord_region q.access (by decide) (by decide)).trans (by rw [none]; exact field_zero 6 6)
  · obtain ⟨hr, present⟩ := regionPresence_some r
    rw [← some] at hr present
    exact ⟨(field_accessWord_region q.access (by decide) (by decide)).trans hr,
      (field_accessWord_region q.access (by decide) (by decide)).trans present⟩
  · exact (field_accessWord_lease q.access (by decide) (by decide)).trans (by rw [none]; exact field_zero 12 11)
  · obtain ⟨hid, hgen, present⟩ := leasePresence_some id g
    rw [← some] at hid hgen present
    exact ⟨(field_accessWord_lease q.access (by decide) (by decide)).trans hid,
      (field_accessWord_lease q.access (by decide) (by decide)).trans hgen,
      (field_accessWord_lease q.access (by decide) (by decide)).trans present⟩

/-! ## The record taken (R177) -/

theorem atIndex_val {α : Type} {n : Nat} (v : Vector α n) (i : Fin n) : atIndex v i.val = some v[i] :=
  dif_pos i.isLt

theorem atIndex_of_le {α : Type} {n i : Nat} (v : Vector α n) (h : n ≤ i) : atIndex v i = none :=
  dif_neg (Nat.not_lt.mpr h)

theorem exec_tableIndexWrite {s : State} {v : Word} {x : Vector Word 4}
    (h : s.snapshot s.mgp.tableSelect (v.extractLsb' 0 8) = x) :
    exec (.tableIndexWrite v) s =
      .next { s with mgp := { s.mgp with tableIndex := v.extractLsb' 0 8, tableData := x } } := by
  subst h
  rfl

/-- R177: an undefined selection, or an index past the end of the table selected. -/
def NoRecord (s : State) (sel i : Nat) : Prop :=
  (sel = 0 ∧ 4 ≤ i) ∨ (sel = 1 ∧ 32 ≤ i) ∨ (sel = 2 ∧ 64 ≤ i) ∨ (sel = 3 ∧ s.le.waiters.length ≤ i) ∨
  (sel = 4 ∧ 4 ≤ i) ∨ (sel = 5 ∧ 8 ≤ i) ∨ 6 ≤ sel

theorem snapshot_of_noRecord {s : State} {table : BitVec 3} {index : BitVec 8}
    (h : NoRecord s table.toNat index.toNat) : s.snapshot table index = invalidSnapshot := by
  unfold State.snapshot
  rcases h with ⟨hs, hi⟩ | ⟨hs, hi⟩ | ⟨hs, hi⟩ | ⟨hs, hi⟩ | ⟨hs, hi⟩ | ⟨hs, hi⟩ | hs
  case inr.inr.inr.inr.inr.inr =>
    dsimp only
    split
    case h_7 => rfl
    all_goals omega
  case inr.inr.inr.inl => simp only [hs, List.getElem?_eq_none hi, Option.map_none, Option.getD_none]
  case inr.inr.inr.inr.inl => simp only [hs, dif_neg (Nat.not_lt.mpr hi), Option.getD_none]
  all_goals simp only [hs, atIndex_of_le _ hi, Option.map_none, Option.getD_none]

/-- Settles O44: the record the selected table gives at the index, and the layout of each table's snapshot. -/
theorem tableIndexTakesASnapshot : Obligations.TableIndexTakesASnapshot := by
  intro s v i sel takes
  have taken : ∀ x, s.snapshot s.mgp.tableSelect (v.extractLsb' 0 8) = x → takes x := fun _ => exec_tableIndexWrite
  refine ⟨fun g hs hi => ⟨taken _ ?group, groupSnapshot_layout _⟩,
    fun r hs hi => ⟨taken _ ?region, regionSnapshot_layout _⟩,
    fun id hs hi => ⟨taken _ ?lease, leaseSnapshot_layout _⟩,
    fun hs w hi => ⟨taken _ ?waiter, waiterSnapshot_layout w⟩,
    fun p hs hi => ⟨taken _ ?port, portSnapshot_layout p _⟩,
    fun x hs hi => ⟨taken _ ?target, targetSnapshot_layout _⟩, fun none => taken _ (snapshot_of_noRecord none)⟩
  all_goals
    simp only [sel] at hs
    simp only [i] at hi
    unfold State.snapshot
  case waiter => simp only [hs, Option.mem_def.mp hi, Option.map_some, Option.getD_some]
  case port => simp only [hs, hi, dif_pos p.isLt, Option.getD_some]
  all_goals
    simp only [hs, hi, atIndex_val, State.region, State.lease, State.target, Option.map_some, Option.getD_some]

end Sys2Proof.Machine
end

section
/-! The management registers (R175, R182, R183, R189): the event flags and MIRQ, the registers that only store, and the writes
that are discarded. -/

namespace Sys2Proof.Machine

open Sys2Proof.Safety Sys2Proof.Claims

/-! ## Event flags and MIRQ (R182, R183) -/

/-- R182: the ten events, in the order of their bits. -/
def allEvents : List Event :=
  [.frameError, .crcError, .cmdDone, .cmdReject, .targetTimeout, .targetFaulted, .portQuarantined, .portLockedOut,
    .leaseExpired, .slotsLow]

theorem mem_allEvents (e : Event) : e ∈ allEvents := by cases e <;> decide

theorem Event.bit_lt (e : Event) : e.bit < 10 := by cases e <;> decide

/-- Table 10-9: every bit of EVENT_FLAGS is the flag of an event. -/
theorem exists_bit_eq : ∀ i < 10, ∃ e : Event, e.bit = i := by
  have onTo : ∀ i < 10, i ∈ allEvents.map (·.bit) := by decide
  intro i hi
  obtain ⟨e, _, he⟩ := List.mem_map.mp (onTo i hi)
  exact ⟨e, he⟩

/-- R183: MIRQ is asserted while some event is both flagged and enabled. -/
theorem mirq_iff (s : State) : s.mirq = true ↔ ∃ e : Event, s.flagged e = true ∧ s.mgp.enables.getLsbD e.bit = true := by
  unfold State.mirq State.flagged
  simp only [bne_iff_ne, ← Bool.and_eq_true, ← BitVec.getLsbD_and]
  constructor
  · intro some
    by_contra none
    refine some (BitVec.eq_of_getLsbD_eq fun i hi => ?_)
    obtain ⟨e, rfl⟩ := exists_bit_eq i hi
    rw [BitVec.getLsbD_zero]
    exact Bool.eq_false_of_not_eq_true fun h => none ⟨e, h⟩
  · rintro ⟨e, he⟩ zero
    rw [zero, BitVec.getLsbD_zero] at he
    cases he

theorem getLsbD_eventField (v : Word) (e : Event) : (v.extractLsb' 0 10).getLsbD e.bit = v.getLsbD e.bit := by
  rw [BitVec.getLsbD_extractLsb', decide_eq_true e.bit_lt, Bool.true_and, Nat.zero_add]

/-- Settles O45: bit by bit, each bit of the two registers being that of one event. -/
theorem eventFlagsAndMirq : Obligations.EventFlagsAndMirq := by
  intro s v e cleared enabled
  refine ⟨by decide, rfl, rfl, ?_, rfl, ?_⟩
  · change (s.mgp.flags &&& ~~~(v.extractLsb' 0 10)).getLsbD e.bit = _
    rw [BitVec.getLsbD_and, BitVec.getLsbD_not, getLsbD_eventField, decide_eq_true e.bit_lt, Bool.true_and]
    rfl
  · rw [mirq_iff]
    refine exists_congr fun x => ?_
    change _ ∧ (v.extractLsb' 0 10).getLsbD x.bit = true ↔ _
    rw [getLsbD_eventField]
    exact (and_iff_right (mem_allEvents x)).symm

/-! ## TARGET_LIMIT (R132) -/

@[simp] theorem target_setLimit (t : TargetId) (n : Nat) (s : State) (x : TargetId) :
    (s.setLimit t n).target x = if t = x then { s.target x with limit := n } else s.target x :=
  target_updTarget s t _ x

/-- R132: a TARGET_LIMIT write changes the targets' records only. -/
theorem writeTargetLimit_frame (t0 t1 t2 t3 : TargetId) (v : Word) (s : State) :
    let t := s.writeTargetLimit t0 t1 t2 t3 v
    t = { s with bsq := { s.bsq with targets := t.bsq.targets } } := rfl

/-- R132: the register of the four targets from T`4 * b` up. -/
theorem target_writeTargetLimit {b : Nat} {t0 t1 t2 t3 : TargetId} (h0 : t0.val = 4 * b) (h1 : t1.val = 4 * b + 1)
    (h2 : t2.val = 4 * b + 2) (h3 : t3.val = 4 * b + 3) (v : Word) (s : State) (x : TargetId) :
    (s.writeTargetLimit t0 t1 t2 t3 v).target x =
      if x.val / 4 = b then { s.target x with limit := (v.extractLsb' (4 * (x.val % 4)) 4).toNat } else s.target x := by
  simp only [State.writeTargetLimit, target_setLimit, Fin.ext_iff, h0, h1, h2, h3]
  by_cases hx : x.val / 4 = b
  · have place : x.val % 4 = 0 ∨ x.val % 4 = 1 ∨ x.val % 4 = 2 ∨ x.val % 4 = 3 := by omega
    have number : x.val = 4 * b + x.val % 4 := by omega
    rw [if_pos hx, number]
    rcases place with h | h | h | h <;> simp [h, field]
  · have off : ∀ i < 4, ¬4 * b + i = x.val := by omega
    rw [if_neg hx, if_neg (off 3 (by decide)), if_neg (off 2 (by decide)), if_neg (off 1 (by decide)),
      if_neg (show ¬4 * b = x.val from off 0 (by decide))]

/-- A field put back where it was read: the word under the field's mask. -/
theorem place_field (w : Word) {lo len : Nat} : place (field w lo len) lo len = w &&& place (2 ^ len - 1) lo len := by
  apply BitVec.eq_of_getLsbD_eq
  intro i _
  rw [BitVec.getLsbD_and, getLsbD_place, getLsbD_place, Nat.testBit_two_pow_sub_one]
  by_cases low : lo ≤ i
  · by_cases high : i - lo < len
    · rw [testBit_field w high, Nat.add_sub_cancel' low]
      simp [high, Bool.and_comm]
    · simp [high]
  · simp [low]

/-- R132: four limits of four bits, as the register reads back. -/
theorem place_limits (v : Word) :
    place (field v 0 4) 0 4 ||| place (field v 4 4) 4 4 ||| place (field v 8 4) 8 4 ||| place (field v 12 4) 12 4 =
      v &&& 0xFFFF#32 := by
  simp only [place_field, ← BitVec.and_or_distrib_left]
  rfl

theorem targetLimitWord_writeTargetLimit {t0 t1 t2 t3 : TargetId} (distinct : [t0, t1, t2, t3].Nodup) (v : Word)
    (s : State) : (s.writeTargetLimit t0 t1 t2 t3 v).targetLimitWord t0 t1 t2 t3 = v &&& 0xFFFF#32 := by
  rw [← place_limits]
  simp only [List.nodup_cons, List.mem_cons, List.not_mem_nil, or_false, not_or] at distinct
  obtain ⟨⟨h01, h02, h03⟩, ⟨h12, h13⟩, h23, _⟩ := distinct
  simp [State.targetLimitWord, State.writeTargetLimit, Ne.symm h01, Ne.symm h02, Ne.symm h03, Ne.symm h12, Ne.symm h13,
    Ne.symm h23]

/-! ## Registers by number (R189) -/

/-- The register of a number. -/
theorem eq_ofNat_of_toNat_eq {w m : Nat} {n : BitVec w} (h : n.toNat = m) : n = BitVec.ofNat w m := by
  rw [← h, BitVec.ofNat_toNat, BitVec.setWidth_eq]

theorem writeRegister_portConfig (p : PortId) (v : Word) (s : State) :
    s.writeRegister (BitVec.ofNat 7 (23 + p.val)) v = s.writePortConfig p v := by
  fin_cases p <;> rfl

/-- R175: read-only registers, REGION_STAGE3 and numbers that name no register. -/
theorem writeRegister_of_discarded {n : BitVec 7} (h : n.toNat ∈ [0, 2, 11, 16, 19, 20, 21, 22] ∨ 30 ≤ n.toNat)
    (v : Word) (s : State) : s.writeRegister n v = s := by
  simp only [List.mem_cons, List.not_mem_nil, or_false] at h
  unfold State.writeRegister
  split
  case h_23 => rfl
  all_goals omega

/-- R174: the two defined polynomials, and the write of another. -/
theorem writeCrcControl_of_poly {v : Word} (s : State) :
    (field v 1 2 = 0 → s.writeCrcControl v =
      { s with mgp := { s.mgp with crc := { enable := v.getLsbD 0, poly := .p31 } } }) ∧
    (field v 1 2 = 1 → s.writeCrcControl v =
      { s with mgp := { s.mgp with crc := { enable := v.getLsbD 0, poly := .p9B } } }) ∧
    (2 ≤ field v 1 2 → s.writeCrcControl v = s) := by
  unfold State.writeCrcControl
  refine ⟨fun h => by simp only [h], fun h => by simp only [h], fun h => ?_⟩
  split
  case h_3 => rfl
  all_goals omega

/-- Settles O47: each register by its number, the two TARGET_LIMIT registers target by target. -/
theorem plainRegistersStore : Obligations.PlainRegistersStore := by
  intro s n v
  obtain ⟨p31, p9B, undefined⟩ := writeCrcControl_of_poly (v := v) s
  refine ⟨rfl, rfl, rfl, rfl, rfl, rfl, rfl, rfl, rfl, fun p hn => ?port, ?limits,
    fun h => congrArg _ (writeRegister_of_discarded h v s), fun boot => congrArg _ (if_pos boot),
    fun live => congrArg _ (if_neg (by rw [live]; decide)), fun h => congrArg _ (p31 (congrArg BitVec.toNat h)),
    fun h => congrArg _ (p9B (congrArg BitVec.toNat h)), fun h => congrArg _ (undefined h)⟩
  case port =>
    rw [eq_ofNat_of_toNat_eq hn]
    exact congrArg _ (writeRegister_portConfig p v s)
  case limits =>
    rintro (rfl | rfl)
    · exact ⟨s.writeTargetLimit 0 1 2 3 v, rfl, target_writeTargetLimit rfl rfl rfl rfl v s,
        writeTargetLimit_frame 0 1 2 3 v s, targetLimitWord_writeTargetLimit (by decide) v s⟩
    · exact ⟨s.writeTargetLimit 4 5 6 7 v, rfl, target_writeTargetLimit rfl rfl rfl rfl v s,
        writeTargetLimit_frame 4 5 6 7 v s, targetLimitWord_writeTargetLimit (by decide) v s⟩

end Sys2Proof.Machine
end

section
/-! Frames (R172 to R174, R184): the bits of a field and their number, a low period of nCS bit by bit, and the check and the
write at its end. -/

namespace Sys2Proof.Machine

open Sys2Proof.Safety Sys2Proof.Claims

/-! ## Bits and numbers -/

theorem bitsToNat_concat (bits : List Bool) (b : Bool) : bitsToNat (bits ++ [b]) = 2 * bitsToNat bits + b.toNat := by
  simp [bitsToNat]

@[simp] theorem length_natToBits (len n : Nat) : (natToBits len n).length = len := by
  simp [natToBits]

theorem natToBits_succ (len n : Nat) : natToBits (len + 1) n = natToBits len (n / 2) ++ [n.testBit 0] := by
  simp only [natToBits, List.range_succ, List.map_append, List.map_cons, List.map_nil]
  congr 1
  · refine List.map_congr_left fun i hi => ?_
    have := List.mem_range.mp hi
    rw [show len + 1 - 1 - i = (len - 1 - i) + 1 by omega, Nat.testBit_succ]
  · rw [show len + 1 - 1 - len = 0 by omega]

theorem bitsToNat_natToBits (len n : Nat) : bitsToNat (natToBits len n) = n % 2 ^ len := by
  induction len generalizing n with
  | zero => simp [natToBits, bitsToNat, Nat.mod_one]
  | succ len ih =>
    have last : (n.testBit 0).toNat = n % 2 := by
      rw [Nat.testBit_zero]
      rcases Nat.mod_two_eq_zero_or_one n with h | h <;> simp [h]
    rw [natToBits_succ, bitsToNat_concat, ih, last, Nat.pow_succ', Nat.mod_mul, Nat.add_comm]

/-- A word spelled in as many bits as it has. -/
theorem ofNat_bitsToNat_natToBits {w : Nat} (x : BitVec w) : BitVec.ofNat w (bitsToNat (natToBits w x.toNat)) = x := by
  rw [bitsToNat_natToBits, Nat.mod_eq_of_lt x.isLt, BitVec.ofNat_toNat, BitVec.setWidth_eq]

/-! ## Fields of a frame (R172) -/

section Fields

variable {all : List Bool} {n : BitVec 7} {v : Word}
  (h : all.take 40 = true :: natToBits 7 n.toNat ++ natToBits 32 v.toNat)
include h

theorem frameWrites_of_write : frameWrites all = true := by
  have head : (all.take 40).head? = some true := by rw [h]; rfl
  rw [List.head?_take] at head
  simp at head
  simp [frameWrites, List.headD_eq_head?_getD, head]

theorem frameRegister_of_write : frameRegister all = n := by
  have byte0 : all.take 8 = true :: natToBits 7 n.toNat := by
    rw [show all.take 8 = (all.take 40).take 8 by rw [List.take_take]; rfl, h,
      List.take_left' (by simp)]
  rw [frameRegister, byte0]
  exact ofNat_bitsToNat_natToBits n

theorem frameData_of_write : frameData all = v := by
  rw [frameData, h, List.drop_left' (by simp)]
  exact ofNat_bitsToNat_natToBits v

end Fields

/-! ## A low period of nCS (R172, R184) -/

section Receiving

variable {s : State} {got : List Bool} {x : Word} {crc : CrcConfig} {k : Nat}
  (h : s.mgp.receiver = .receiving got x crc k)
include h

/-- R172: at a rising edge a bit comes in; with the eighth the register is captured. -/
theorem sckRise_of_receiving (b : Bool) :
    s.sckRise b = s.setReceiver (.receiving (got ++ [b])
      (if (got ++ [b]).length = 8 then s.readRegister (frameRegister (got ++ [b])) else x) crc k) := by
  simp only [State.sckRise, h]

theorem sckFall_of_receiving : s.sckFall = s.setReceiver (.receiving got x crc got.length) := by
  simp only [State.sckFall, h]

theorem ncsFall_of_receiving : s.ncsFall = s := by
  simp only [State.ncsFall, h]

theorem ncsRise_of_receiving : s.ncsRise = (s.setReceiver .high).takeFrame got crc := by
  simp only [State.ncsRise, h]

end Receiving

theorem setReceiver_setReceiver (s : State) (r r' : Receiver) : (s.setReceiver r).setReceiver r' = s.setReceiver r' := rfl

theorem setReceiver_self (s : State) : s.setReceiver s.mgp.receiver = s := rfl

/-- R172: the bits of a low period come behind those received; nothing but the receiver changes. -/
theorem foldl_shift_of_receiving (bits : List Bool) {s : State} {got : List Bool} {x : Word} {crc : CrcConfig} {k : Nat}
    (h : s.mgp.receiver = .receiving got x crc k) :
    ∃ (y : Word) (m : Nat), bits.foldl (fun s b => (s.sckRise b).sckFall) s =
      s.setReceiver (.receiving (got ++ bits) y crc m) := by
  induction bits generalizing s got x k with
  | nil =>
    refine ⟨x, k, ?_⟩
    rw [List.append_nil, ← h]
    exact (setReceiver_self s).symm
  | cons b bits ih =>
    have step : ∃ y, (s.sckRise b).sckFall = s.setReceiver (.receiving (got ++ [b]) y crc (got ++ [b]).length) := by
      rw [sckRise_of_receiving h]
      exact ⟨_, sckFall_of_receiving rfl⟩
    obtain ⟨y, step⟩ := step
    rw [List.foldl_cons, step]
    obtain ⟨z, m, rest⟩ := ih (s := s.setReceiver (.receiving (got ++ [b]) y crc (got ++ [b]).length)) rfl
    refine ⟨z, m, rest.trans ?_⟩
    rw [setReceiver_setReceiver, List.append_assoc, List.singleton_append]

theorem lowPeriod_of_receiving (bits : List Bool) {s : State} {got : List Bool} {x : Word} {crc : CrcConfig} {k : Nat}
    (h : s.mgp.receiver = .receiving got x crc k) :
    s.lowPeriod bits = (s.setReceiver .high).takeFrame (got ++ bits) crc := by
  obtain ⟨y, m, shifted⟩ := foldl_shift_of_receiving bits h
  unfold State.lowPeriod
  rw [ncsFall_of_receiving h, shifted]
  exact ncsRise_of_receiving rfl

/-- R172, R174: where nCS stands high, it falls first, and the CRC configuration of that moment checks the frame. -/
theorem lowPeriod_of_high (bits : List Bool) {s : State} (h : s.mgp.receiver = .high) :
    s.lowPeriod bits = (s.setReceiver .high).takeFrame bits s.mgp.crc := by
  have fall : s.ncsFall = s.setReceiver (.receiving [] 0#32 s.mgp.crc 0) := by simp only [State.ncsFall, h]
  have begun : (s.setReceiver (.receiving [] 0#32 s.mgp.crc 0)).mgp.receiver = .receiving [] 0#32 s.mgp.crc 0 := rfl
  calc s.lowPeriod bits
      = (s.setReceiver (.receiving [] 0#32 s.mgp.crc 0)).lowPeriod bits := by
        unfold State.lowPeriod
        rw [fall, ncsFall_of_receiving begun]
    _ = (s.setReceiver .high).takeFrame bits s.mgp.crc := lowPeriod_of_receiving bits begun

section Abandoned

variable {s : State} (h : s.mgp.receiver = .abandoned)
include h

theorem sckRise_of_abandoned (b : Bool) : s.sckRise b = s := by simp only [State.sckRise, h]

theorem sckFall_of_abandoned : s.sckFall = s := by simp only [State.sckFall, h]

/-- R184: a low period that began before a hardware reset is no frame. -/
theorem lowPeriod_of_abandoned (bits : List Bool) : s.lowPeriod bits = s.setReceiver .high := by
  have shifted : bits.foldl (fun s b => (s.sckRise b).sckFall) s = s := by
    induction bits with
    | nil => rfl
    | cons b bits ih => rw [List.foldl_cons, sckRise_of_abandoned h, sckFall_of_abandoned h, ih]
  unfold State.lowPeriod
  rw [show s.ncsFall = s by simp only [State.ncsFall, h], shifted]
  simp only [State.ncsRise, h]

end Abandoned

/-! ## The check of a frame (R173) -/

/-- R174: the CRC is enabled, and the byte received is not that of bytes 0 to 4. -/
abbrev CrcWrong (all : List Bool) (crc : CrcConfig) : Prop :=
  crc.enable = true ∧ frameCrc all ≠ crc8 crc.poly (all.take 40)

section Check

variable {all : List Bool} {crc : CrcConfig} (s : State)

theorem takeFrame_of_wrongLength (h : all.length ≠ frameLength crc) : s.takeFrame all crc = s.raise .frameError :=
  if_pos h

theorem takeFrame_of_wrongCrc (h : all.length = frameLength crc) (wrong : CrcWrong all crc) :
    s.takeFrame all crc = s.raise .crcError :=
  (if_neg (not_not.mpr h)).trans (if_pos wrong)

theorem takeFrame_of_good (h : all.length = frameLength crc) (good : ¬CrcWrong all crc) :
    s.takeFrame all crc = if frameWrites all then s.writeRegister (frameRegister all) (frameData all) else s :=
  (if_neg (not_not.mpr h)).trans (if_neg good)

end Check

/-- Settles O48: the bits that came before the command and those it carries are one low period, checked and taken as one. -/
theorem framesAreChecked : Obligations.FramesAreChecked := by
  intro s bits n v risen flag checked
  have taken : ∀ (all : List Bool) (crc : CrcConfig), s.lowPeriod bits = risen.takeFrame all crc → checked all crc := by
    intro all crc h
    have rise : exec (.ncsRise bits) s = .next (risen.takeFrame all crc) := congrArg _ h
    refine ⟨fun len => ?length, fun len wrong => ?crc, fun len good reads => ?read, fun len good writes => ?write⟩
    case length => exact rise.trans (congrArg _ (takeFrame_of_wrongLength risen len))
    case crc => exact rise.trans (congrArg _ (takeFrame_of_wrongCrc risen len wrong))
    case read =>
      have noWrite : frameWrites all = false := by simp [frameWrites, List.headD_eq_head?_getD, reads]
      rw [rise, takeFrame_of_good risen len good, noWrite]
      rfl
    case write =>
      have write : exec (.ncsRise bits) s = exec (.registerWrite n v) risen := by
        rw [rise, takeFrame_of_good risen len good, frameWrites_of_write writes, frameRegister_of_write writes,
          frameData_of_write writes]
        rfl
      rw [write]
      refine ⟨rfl, ?_, ?_, ?_, ?_, ?_, ?_, fun code h1 => ?host⟩
      case host =>
        rintro rfl hc
        rw [exec_hostRow h1, exec_hostCmdWrite, ← hc, BitVec.ofNat_toNat, BitVec.setWidth_eq]
      all_goals
        rintro rfl
        rfl
  exact ⟨fun high => taken _ _ (lowPeriod_of_high bits high),
    fun got x crc k receiving => taken _ _ (lowPeriod_of_receiving bits receiving),
    fun abandoned => congrArg _ (lowPeriod_of_abandoned abandoned bits)⟩

end Sys2Proof.Machine
end

section
/-! Register reads (R172, R174, R176): the bits SDO shows, the CRC bit by bit, and the value of each register. -/

namespace Sys2Proof.Machine

open Sys2Proof.Safety Sys2Proof.Claims

/-! ## SDO (R172) -/

theorem getD_natToBits {len n i : Nat} (h : i < len) : (natToBits len n).getD i false = n.testBit (len - 1 - i) := by
  simp [natToBits, h]

theorem getD_natToBits_toNat {w i : Nat} (x : BitVec w) (h : i < w) :
    (natToBits w x.toNat).getD i false = x.getLsbD (w - 1 - i) :=
  getD_natToBits h

section Sdo

variable (got : List Bool) (x : Word) (crc : CrcConfig) {k : Nat}

/-- The bits of byte 0 and of the captured value, and those behind them. -/
theorem sdoBits_eq : sdoBits got x crc = (List.replicate 8 false ++ natToBits 32 x.toNat) ++
    if crc.enable then natToBits 8 (crc8 crc.poly (got.take 8 ++ natToBits 32 x.toNat)).toNat else [] := rfl

theorem getD_sdoBits_byte0 (h : k < 8) : (sdoBits got x crc).getD k false = false := by
  rw [sdoBits_eq, List.getD_append _ _ _ _ (by simp; omega), List.getD_append _ _ _ _ (by simpa using h)]
  exact List.getD_replicate _ h

theorem getD_sdoBits_value (h8 : 8 ≤ k) (h40 : k < 40) : (sdoBits got x crc).getD k false = x.getLsbD (39 - k) := by
  rw [sdoBits_eq, List.getD_append _ _ _ _ (by simpa using h40), List.getD_append_right _ _ _ _ (by simpa using h8),
    List.length_replicate, getD_natToBits_toNat x (by omega)]
  congr 1
  omega

/-- From byte 5 on: what stands behind the captured value. -/
theorem getD_sdoBits_end (h : 40 ≤ k) : (sdoBits got x crc).getD k false =
    (if crc.enable then natToBits 8 (crc8 crc.poly (got.take 8 ++ natToBits 32 x.toNat)).toNat else []).getD (k - 40)
      false := by
  rw [sdoBits_eq, List.getD_append_right _ _ _ _ (by simpa using h)]
  simp

theorem getD_sdoBits_crc (h40 : 40 ≤ k) (h48 : k < 48) (on : crc.enable = true) :
    (sdoBits got x crc).getD k false =
      (crc8 crc.poly (got.take 8 ++ natToBits 32 x.toNat)).getLsbD (47 - k) := by
  rw [getD_sdoBits_end got x crc h40, if_pos on, getD_natToBits_toNat _ (by omega)]
  congr 1
  omega

theorem getD_sdoBits_noCrc (h : 40 ≤ k) (off : crc.enable = false) : (sdoBits got x crc).getD k false = false := by
  rw [getD_sdoBits_end got x crc h, if_neg (by simp [off])]
  rfl

theorem getD_sdoBits_beyond (h : 48 ≤ k) : (sdoBits got x crc).getD k false = false := by
  rw [getD_sdoBits_end got x crc (by omega)]
  split
  · exact List.getD_eq_default _ _ (by rw [length_natToBits]; omega)
  · rfl

end Sdo

theorem sdo_of_receiving {s : State} {got : List Bool} {x : Word} {crc : CrcConfig} {k : Nat}
    (h : s.mgp.receiver = .receiving got x crc k) : s.sdo = some ((sdoBits got x crc).getD k false) := by
  simp only [State.sdo, h]

/-! ## The CRC (R174) -/

/-- R174: one more bit, most significant end first. -/
theorem crc8_concat (poly : CrcPoly) (bits : List Bool) (b : Bool) :
    crc8 poly (bits ++ [b]) = crcBit poly.value (crc8 poly bits) b := by
  simp [crc8]

theorem crcBit_eq (poly crc : Byte) (b : Bool) :
    crcBit poly crc b = if crc.getLsbD 7 = b then crc <<< 1 else (crc <<< 1) ^^^ poly := by
  unfold crcBit
  simp only [bne_iff_ne, ne_eq, ite_not]

theorem CrcPoly.value_eq (poly : CrcPoly) : poly.value = if poly = .p31 then 0x31#8 else 0x9B#8 := by
  cases poly <;> rfl

/-! ## Values of the registers (Table 10-9) -/

theorem HostResult.code_lt (x : HostResult) : x.code < 2 ^ 3 := by cases x <;> decide

theorem crcControlWord_fields (c : CrcConfig) :
    field (crcControlWord c) 0 1 = c.enable.toNat ∧
    field (crcControlWord c) 1 2 = if c.poly = .p31 then 0 else 1 := by
  simp (disch := decide) only [crcControlWord, field_or, field_place_self, field_place_disjoint, field_placeBit_self,
    field_placeBit_disjoint, Nat.or_zero, Nat.zero_or, true_and]
  split <;> rfl

/-- R176: the four fields of MAP_STATUS. -/
theorem mapStatusWord_fields (s : State) :
    let w := mapStatusWord s
    field w 0 1 = (if s.mu.map = .live then 1 else 0) ∧ field w 1 1 = (if s.mgp.unit = .idle then 0 else 1) ∧
    field w 8 7 = s.le.freeSlots % 128 ∧ field w 16 5 = s.le.waiters.length % 32 := by
  simp (disch := decide) only [mapStatusWord, field_or, field_place_self, field_place_disjoint, field_placeBit_self,
    field_placeBit_disjoint, Nat.or_zero, Nat.zero_or]
  refine ⟨?_, ?_, rfl, rfl⟩
  · by_cases h : s.mu.map = .live <;> simp [h]
  · by_cases h : s.mgp.unit = .idle <;> simp [h]

theorem hostStatusWord_fields (h : HostStatus) :
    field (hostStatusWord h) 0 4 = h.code.toNat ∧ field (hostStatusWord h) 8 3 = h.result.code := by
  simp (disch := decide) only [hostStatusWord, field_or, field_place_self, field_place_disjoint, Nat.or_zero, Nat.zero_or]
  exact ⟨Nat.mod_eq_of_lt h.code.isLt, Nat.mod_eq_of_lt (HostResult.code_lt _)⟩

theorem portConfigWord_fields (q : Requester) :
    field (portConfigWord q) 0 2 = q.busPriority.val ∧ field (portConfigWord q) 4 2 = q.claimCap.val := by
  simp (disch := decide) only [portConfigWord, field_or, field_place_self, field_place_disjoint, Nat.or_zero, Nat.zero_or]
  exact ⟨Nat.mod_eq_of_lt q.busPriority.isLt, Nat.mod_eq_of_lt q.claimCap.isLt⟩

theorem faultConfigWord_fields (c : PortController) :
    field (faultConfigWord c) 0 5 = c.threshold % 32 ∧ field (faultConfigWord c) 8 3 = c.limit % 8 := by
  simp (disch := decide) only [faultConfigWord, field_or, field_place_self, field_place_disjoint, Nat.or_zero, Nat.zero_or]
  exact ⟨rfl, rfl⟩

theorem readRegister_tableData (s : State) (k : Fin 4) :
    s.readRegister (BitVec.ofNat 7 (19 + k.val)) = s.mgp.tableData[k] := by
  fin_cases k <;> rfl

theorem readRegister_portConfig (s : State) (p : PortId) :
    s.readRegister (BitVec.ofNat 7 (23 + p.val)) = portConfigWord (s.port p).requester := by
  fin_cases p <;> rfl

/-- Table 10-9: REGION_STAGE3, and the numbers that name no register. -/
theorem readRegister_of_unnamed {n : BitVec 7} (h : n = 16#7 ∨ 30 ≤ n.toNat) (s : State) : s.readRegister n = 0#32 := by
  rcases h with rfl | h
  · rfl
  unfold State.readRegister
  split
  case h_17 => rfl
  case h_31 => rfl
  all_goals omega

/-- Settles O49: the receiver by what it holds, SDO bit by bit, and the registers number by number. -/
theorem readFramesReturnRegisters : Obligations.ReadFramesReturnRegisters := by
  intro s bits b v crc k n
  obtain ⟨enable, poly⟩ := crcControlWord_fields s.mgp.crc
  obtain ⟨live, running, freeSlots, waiters⟩ := mapStatusWord_fields s
  obtain ⟨code, result⟩ := hostStatusWord_fields s.mgp.hostStatus
  obtain ⟨threshold, limit⟩ := faultConfigWord_fields s.ptc
  refine ⟨fun receiving => ?receiving, fun high => ?high, fun abandoned => ?abandoned, ⟨rfl, ?crc⟩, rfl, enable, poly, live,
    running, freeSlots, waiters, rfl, rfl, rfl, rfl, rfl, rfl, rfl, rfl, code, result, rfl, rfl, rfl, rfl, rfl, rfl,
    fun k hn => ?tableData, fun p hn => ?portConfig, threshold, limit, fun h => readRegister_of_unnamed h s⟩
  case receiving =>
    have rise := sckRise_of_receiving receiving b
    have sdo := sdo_of_receiving receiving
    refine ⟨fun seven => ?eighth, fun other => ?other, sckFall_of_receiving receiving,
      fun h => ?_, fun h8 h40 => ?_, fun h40 h48 on => ?_, fun h off => ?_, fun h => ?_⟩
    case eighth =>
      have len : (bits ++ [b]).length = 8 := by simp [seven]
      rw [if_pos len, frameRegister, List.take_of_length_le len.le] at rise
      exact rise
    case other =>
      rw [if_neg (by simpa using other)] at rise
      exact rise
    all_goals rw [sdo]
    · rw [getD_sdoBits_byte0 bits v crc h]
    · rw [getD_sdoBits_value bits v crc h8 h40]
    · rw [getD_sdoBits_crc bits v crc h40 h48 on]
    · rw [getD_sdoBits_noCrc bits v crc h off]
    · rw [getD_sdoBits_beyond bits v crc h]
  case high => simp only [State.sckRise, State.sckFall, State.sdo, high, and_self]
  case abandoned =>
    exact ⟨sckRise_of_abandoned abandoned b, sckFall_of_abandoned abandoned, by simp only [State.sdo, abandoned]⟩
  case crc => rw [crc8_concat, crcBit_eq, CrcPoly.value_eq]
  case tableData =>
    rw [eq_ofNat_of_toNat_eq hn]
    exact readRegister_tableData s k
  case portConfig =>
    rw [eq_ofNat_of_toNat_eq hn, readRegister_portConfig]
    exact portConfigWord_fields _

end Sys2Proof.Machine
end

section
/-! The queue of commands and the pin events to come: what a step takes from them, and that no command touches them (logs 1, 2,
25). -/

namespace Sys2Proof.Machine

/-- What waits outside the part: the queue of commands and the pin events to come. -/
def State.queues (s : State) : List Instr × List PinEvent := (s.pending, s.inputs)

theorem queues_eq_iff {s t : State} : t.queues = s.queues ↔ t.pending = s.pending ∧ t.inputs = s.inputs := Prod.mk_inj

theorem Outside.queues {s t : State} (h : Outside s t) : t.queues = s.queues := queues_eq_iff.mpr ⟨h.pending, h.inputs⟩

theorem LeaseWork.queues {s t : State} (h : LeaseWork s t) : t.queues = s.queues := h.outside.queues

theorem queues_foldl {α : Type} {f : State → α → State} (h : ∀ s a, (f s a).queues = s.queues) (l : List α) (s : State) :
    (l.foldl f s).queues = s.queues :=
  List.foldlRecOn l f (motive := fun t : State => t.queues = s.queues) rfl fun t ht a _ => (h t a).trans ht

/-! ## Records -/

@[simp] theorem queues_updPort (p : PortId) (f : Port → Port) (s : State) : (s.updPort p f).queues = s.queues := rfl

@[simp] theorem queues_updRequester (p : PortId) (f : Requester → Requester) (s : State) :
    (s.updRequester p f).queues = s.queues := rfl

@[simp] theorem queues_answer (p : PortId) (a : Answer) (s : State) : (s.answer p a).queues = s.queues := rfl

@[simp] theorem queues_updRegion (r : RegionId) (f : Region → Region) (s : State) :
    (s.updRegion r f).queues = s.queues := rfl

@[simp] theorem queues_putLease (id : LeaseId) (l : Lease) (s : State) : (s.putLease id l).queues = s.queues :=
  (putLease_leaseWork id l s).queues

@[simp] theorem queues_retireTest (r : RegionId) (s : State) : (s.retireTest r).queues = s.queues :=
  (retireTest_outside r s).queues

@[simp] theorem queues_softResetReport (s : State) : s.softResetReport.queues = s.queues :=
  (softResetReport_outside s).queues

@[simp] theorem queues_endAccess (p : PortId) (e : AccessEnd) (s : State) : (s.endAccess p e).queues = s.queues :=
  (endAccess_outside p e s).queues

/-! ## Faults and barring -/

@[simp] theorem queues_enterBarring (p : PortId) (s : State) : (s.enterBarring p).queues = s.queues := rfl

@[simp] theorem queues_barRequest (who : PortId → Bool) (s : State) : (s.barRequest who).queues = s.queues :=
  (barRequest_leaseWork who s).queues

@[simp] theorem queues_clearRequest (p : PortId) (s : State) : (s.clearRequest p).queues = s.queues :=
  (clearRequest_leaseWork p s).queues

@[simp] theorem queues_countFault (p : PortId) (s : State) : (s.countFault p).queues = s.queues := by
  unfold State.countFault
  dsimp only
  split <;> simp

/-! ## Lease commands -/

theorem queues_weighClaim (w : Waiter) (s : State) : (s.weighClaim w).1.queues = s.queues := by
  unfold State.weighClaim
  dsimp only
  split
  · exact (grantLease_leaseWork ..).queues
  split
  · rfl
  · exact (settle_leaseWork s (.refl (s.enterWaiter w))).queues

theorem queues_leClaim (p : PortId) (w0 w1 w2 : Word) (s : State) : (s.leClaim p w0 w1 w2).1.queues = s.queues := by
  unfold State.leClaim
  split
  · split
    · rfl
    · exact queues_weighClaim _ s
  · rfl

theorem queues_leRenew (p : PortId) (w0 : Word) (s : State) : (s.leRenew p w0).1.queues = s.queues := by
  unfold State.leRenew
  dsimp only
  split
  · rfl
  split
  · split
    · exact (settle_leaseWork s ((putLease_leaseWork _ _ s).trans (revoke_leaseWork _ _ _))).queues
    · exact queues_putLease _ _ s
  split
  · rfl
  · exact queues_putLease _ _ s

@[simp] theorem queues_leCommand (p : PortId) (s : State) : (s.leCommand p).1.queues = s.queues := by
  unfold State.leCommand
  dsimp only
  split
  · rfl
  split
  · exact queues_leClaim p _ _ _ s
  · exact queues_leRenew p _ s
  · exact (leRelease_leaseWork p _ s).queues
  · exact (leUpgrade_leaseWork p _ s).queues
  · exact (leDowngrade_leaseWork p _ s).queues
  · exact (leWithdraw_leaseWork p _ s).queues
  all_goals rfl

@[simp] theorem queues_placeReply (p : PortId) (r : Reply) (s : State) : (s.placeReply p r).queues = s.queues := rfl

theorem queues_submit (p : PortId) (s : State) : (s.submit p).queues = s.queues := by
  unfold State.submit
  dsimp only
  split <;> simp

/-! ## Accesses -/

@[simp] theorem queues_windowRead (p : PortId) (w : WindowSlot) (s : State) : (s.windowRead p w).queues = s.queues := by
  cases w <;> rfl

theorem queues_windowAccess (p : PortId) (a : Presentation) (s : State) : (s.windowAccess p a).queues = s.queues := by
  unfold State.windowAccess
  dsimp only
  split
  · simp
  split
  · rfl
  · exact queues_submit p s
  all_goals rfl

theorem queues_refuse (p : PortId) (a : Presentation) (f : FaultReason) (s : State) :
    (s.refuse p a f).queues = s.queues := by
  unfold State.refuse
  dsimp only
  split <;> simp

theorem queues_accept (p : PortId) (a : Presentation) (region : Option RegionId)
    (lease : Option (LeaseId × Generation)) (cycle : CycleFields) (s : State) :
    (s.accept p a region lease cycle).queues = s.queues := by
  cases lease with
  | none => cases region <;> rfl
  | some l => cases region <;> exact queues_putLease l.1 _ _

@[simp] theorem queues_carryOut (p : PortId) (a : Presentation) (s : State) : (s.carryOut p a).queues = s.queues := by
  unfold State.carryOut
  split
  · exact queues_refuse p a _ s
  · exact queues_windowAccess p a s
  · exact queues_accept p a _ _ _ s

@[simp] theorem queues_takeStanding (p : PortId) (s : State) : (s.takeStanding p).queues = s.queues := by
  unfold State.takeStanding
  split
  · simp
  · rfl

theorem queues_present (p : PortId) (a : Presentation) (s : State) : (s.present p a).queues = s.queues := by
  unfold State.present
  dsimp only
  split <;> simp

theorem queues_submitRow (code : Nat) (p : PortId) (be : BitVec 4) (data : Word) (s : State) :
    (s.submitRow code p be data).queues = s.queues := by
  unfold State.submitRow
  split
  · exact queues_present p _ s
  · rfl

/-! ## Lease time and the scan of a resume -/

theorem queues_tick (s : State) : s.tick.queues = s.queues := by
  unfold State.tick
  split
  · rfl
  · exact (tickAtLe_leaseWork _).queues

theorem queues_drainOne (id : LeaseId) (s : State) : (s.drainOne id).queues = s.queues := by
  unfold State.drainOne
  split
  · exact (drainLease_outside id s).queues
  · rfl

theorem queues_resumeScan (s : State) : s.resumeScan.queues = s.queues := by
  unfold State.resumeScan
  split
  · rfl
  · exact (grantScan_leaseWork _).queues

/-! ## Host commands -/

theorem queues_hostGoLive (s : State) : s.hostGoLive.queues = s.queues := by
  unfold State.hostGoLive
  split <;> rfl

theorem queues_hostGroupSet (arg : BitVec 12) (s : State) : (s.hostGroupSet arg).queues = s.queues := by
  unfold State.hostGroupSet
  split
  · rfl
  dsimp only
  split <;> rfl

theorem queues_hostRegionCommit (arg : BitVec 12) (s : State) : (s.hostRegionCommit arg).queues = s.queues := by
  unfold State.hostRegionCommit
  split
  · rfl
  split <;> rfl

theorem queues_hostRegionSuspend (arg : BitVec 12) (s : State) : (s.hostRegionSuspend arg).queues = s.queues := by
  unfold State.hostRegionSuspend
  split
  · rfl
  split <;> rfl

theorem queues_hostRegionResume (arg : BitVec 12) (s : State) : (s.hostRegionResume arg).queues = s.queues := by
  unfold State.hostRegionResume
  split
  · rfl
  split <;> rfl

theorem queues_hostRegionRetire (arg : BitVec 12) (s : State) : (s.hostRegionRetire arg).queues = s.queues := by
  unfold State.hostRegionRetire
  split
  · rfl
  split
  · exact (queues_retireTest _ _).trans (retireRequest_leaseWork _ _).queues
  · rfl

theorem queues_hostLeaseRevoke (arg : BitVec 12) (s : State) : (s.hostLeaseRevoke arg).queues = s.queues := by
  unfold State.hostLeaseRevoke
  split
  · rfl
  split
  · rfl
  · exact (settle_leaseWork s (revoke_leaseWork _ _ s)).queues

theorem queues_hostPurge (arg : BitVec 12) (s : State) : (s.hostPurge arg).queues = s.queues := by
  unfold State.hostPurge
  split
  · rfl
  · exact (settle_leaseWork s ((freeTombstones_leaseWork _ s).trans (updPort_leaseWork _ _ _ fun _ => rfl))).queues

theorem queues_hostPortOnline (arg : BitVec 12) (s : State) : (s.hostPortOnline arg).queues = s.queues := by
  unfold State.hostPortOnline
  split
  · rfl
  split <;> rfl

theorem queues_hostPortOffline (arg : BitVec 12) (s : State) : (s.hostPortOffline arg).queues = s.queues := by
  unfold State.hostPortOffline
  split
  · rfl
  split
  · exact queues_clearRequest _ _
  · rfl

theorem queues_hostPortRestore (arg : BitVec 12) (s : State) : (s.hostPortRestore arg).queues = s.queues := by
  unfold State.hostPortRestore
  split
  · rfl
  split <;> rfl

theorem queues_hostTargetClear (arg : BitVec 12) (s : State) : (s.hostTargetClear arg).queues = s.queues := by
  unfold State.hostTargetClear
  split <;> rfl

theorem queues_startSoftReset (s : State) : s.startSoftReset.queues = s.queues := by
  unfold State.startSoftReset
  dsimp only
  rw [queues_softResetReport]
  exact queues_foldl (fun s p => queues_endAccess p _ s) _ _

theorem queues_dispatch (code : BitVec 4) (arg : BitVec 12) (s : State) : (s.dispatch code arg).queues = s.queues := by
  unfold State.dispatch
  split
  · exact queues_hostGoLive s
  · exact queues_hostGroupSet arg s
  · exact queues_hostRegionCommit arg s
  · exact queues_hostRegionSuspend arg s
  · exact queues_hostRegionResume arg s
  · exact queues_hostRegionRetire arg s
  · exact queues_hostLeaseRevoke arg s
  · exact queues_hostPortOnline arg s
  · exact queues_hostPortOffline arg s
  · exact queues_hostPortRestore arg s
  · exact queues_hostPurge arg s
  · exact queues_hostTargetClear arg s
  · exact queues_startSoftReset s
  · rfl

theorem queues_hostCommand (code : BitVec 4) (s : State) : (s.hostCommand code).queues = s.queues := by
  unfold State.hostCommand
  split
  · exact queues_dispatch code _ _
  · rfl

/-! ## Registers and frames -/

theorem queues_writeWindowBase (v : Word) (s : State) : (s.writeWindowBase v).queues = s.queues := by
  unfold State.writeWindowBase
  split <;> rfl

theorem queues_writeCrcControl (v : Word) (s : State) : (s.writeCrcControl v).queues = s.queues := by
  unfold State.writeCrcControl
  split <;> rfl

/-- R164: the lowering of the quarantine counts, the barring and its requests work on the ports and at LE. -/
theorem queues_writeFaultConfig (v : Word) (s : State) : (s.writeFaultConfig v).queues = s.queues := by
  have lowered : ∀ u : State, (allPorts.foldl (fun s p => s.lowerQuarantine p) u).queues = u.queues :=
    queues_foldl (fun s p => queues_updRequester p _ s) allPorts
  unfold State.writeFaultConfig
  dsimp only
  split
  · split
    · refine (queues_barRequest _ _).trans ((queues_foldl (fun u p => ?_) allPorts _).trans (lowered _))
      split
      · exact queues_enterBarring p u
      · rfl
    · exact lowered _
  · rfl

theorem queues_writeRegister (n : BitVec 7) (v : Word) (s : State) : (s.writeRegister n v).queues = s.queues := by
  unfold State.writeRegister
  split
  case h_1 => exact queues_writeCrcControl v s
  case h_2 => exact queues_writeWindowBase v s
  case h_8 => exact queues_hostCommand _ s
  case h_20 => exact queues_writeFaultConfig v s
  all_goals rfl

theorem queues_ncsFall (s : State) : s.ncsFall.queues = s.queues := by
  unfold State.ncsFall
  split <;> rfl

theorem queues_sckRise (sdi : Bool) (s : State) : (s.sckRise sdi).queues = s.queues := by
  unfold State.sckRise
  split <;> rfl

theorem queues_sckFall (s : State) : s.sckFall.queues = s.queues := by
  unfold State.sckFall
  split <;> rfl

theorem queues_takeFrame (bits : List Bool) (crc : CrcConfig) (s : State) :
    (s.takeFrame bits crc).queues = s.queues := by
  unfold State.takeFrame
  split
  · rfl
  split
  · rfl
  split
  · exact queues_writeRegister _ _ s
  · rfl

theorem queues_ncsRise (s : State) : s.ncsRise.queues = s.queues := by
  unfold State.ncsRise
  split
  · exact queues_takeFrame _ _ _
  · rfl
  · rfl

/-- R172: a low period is a fall of nCS, two edges of SCK for each bit, and the rise. -/
theorem queues_lowPeriod (bits : List Bool) (s : State) : (s.lowPeriod bits).queues = s.queues := by
  have edges : ∀ (u : State) (b : Bool), ((u.sckRise b).sckFall).queues = u.queues := fun u b =>
    (queues_sckFall _).trans (queues_sckRise b u)
  unfold State.lowPeriod
  rw [queues_ncsRise, queues_foldl edges, queues_ncsFall]

/-! ## A command -/

theorem queues_assertReset (p : PortId) (s : State) : (s.assertReset p).queues = s.queues := queues_clearRequest p _

theorem queues_deassertReset (p : PortId) (s : State) : (s.deassertReset p).queues = s.queues := queues_takeStanding p _

/-- No command ends in a fault or a refusal. -/
theorem exec_answers (c : Instr) (s : State) : ∃ t, exec c s = .next t := by
  cases c <;> exact ⟨_, rfl⟩

/-- No command touches what waits outside the part. -/
theorem queues_exec {c : Instr} {s t : State} (h : exec c s = .next t) : t.queues = s.queues := by
  cases c <;> cases h
  case powerOnReset | nreset => rfl
  case rqrstAssertion p => exact queues_assertReset p s
  case rqrstDeassertion p => exact queues_deassertReset p s
  case tick => exact queues_tick s
  case leaseExpiry id => exact (expireOne_leaseWork id s).queues
  case waitBudgetExpiry p tag => exact (timeOutOne_leaseWork p tag s).queues
  case busGrantDecision => exact (grantDecision_outside s).queues
  case deviceCycleComplete data => exact (cycleComplete_outside data s).queues
  case busTimeoutExpiry => exact (cycleTimeout_outside s).queues
  case leaseDrainEnd id => exact queues_drainOne id s
  case retireCompletion r => exact queues_retireTest r s
  case softResetCompletion => exact queues_softResetReport s
  case resumeGrantScan => exact queues_resumeScan s
  case tableIndexWrite | eventFlagsWrite | eventEnableWrite => rfl
  case windowBaseWrite v => exact queues_writeWindowBase v s
  case faultConfigWrite v => exact queues_writeFaultConfig v s
  case crcControlWrite v => exact queues_writeCrcControl v s
  case registerWrite n v => exact queues_writeRegister n v s
  case ncsRise bits => exact queues_lowPeriod bits s
  case claim | renew | release | upgrade | downgrade | withdraw | query | lookup => exact queues_submitRow _ _ _ _ s
  case accessArrival | requestWrite | resultRead | portStatusRead | noticeRead => exact queues_present _ _ s
  all_goals exact queues_hostCommand _ s

/-- Settles O3: every command's meaning ends in a next state, and none works on the queue or the pin events. -/
theorem everyCommandAnswersNext : Obligations.EveryCommandAnswersNext := by
  intro s c
  obtain ⟨t, h⟩ := exec_answers c s
  exact ⟨t, h, queues_eq_iff.mp (queues_exec h)⟩

/-! ## A step -/

/-- Settles O1: where a command waits, a step is that command, with the rest of the queue left waiting. -/
theorem stepRunsTheFrontCommand : Obligations.StepRunsTheFrontCommand := by
  intro s c rest waits
  unfold step
  rw [waits]

end Sys2Proof.Machine
end

section
/-! SUPPORT. The free-slot and tombstone counts (R52, R149) and the rights held side by side (R55, R56): what a change of one
lease record, a claim that begins to wait and a grant scan keep of both laws. -/

namespace Sys2Proof.Machine

open Sys2Proof.Safety Sys2Proof.Claims

/-! ## The two laws -/

/-- The range a waiter asks for, and who asks. -/
abbrev Waiter.stake (w : Waiter) : PortId × AddrRange := (w.requester, w.range)

/-- What an event keeps of the counts and of the rights. -/
structure TableKept (s t : State) : Prop where
  counts : CountsAgree s → CountsAgree t
  apart : NoConflicts s → NoConflicts t

namespace TableKept

variable {s t u : State}

theorem refl (s : State) : TableKept s s := ⟨id, id⟩

theorem trans (h : TableKept s t) (k : TableKept t u) : TableKept s u := ⟨k.counts ∘ h.counts, k.apart ∘ h.apart⟩

theorem foldl {α : Type} {f : State → α → State} (h : ∀ s a, TableKept s (f s a)) (l : List α) (s : State) :
    TableKept s (l.foldl f s) := by
  induction l generalizing s with
  | nil => exact refl s
  | cons a l ih => exact (h s a).trans (ih (f s a))

end TableKept

/-! ## Counts -/

/-- Two counts of the lease slots that differ at one slot. -/
theorem countP_allLeases {f g : LeaseId → Bool} (id : LeaseId) (h : ∀ j : LeaseId, j ≠ id → f j = g j) :
    allLeases.countP f + (g id).toNat = allLeases.countP g + (f id).toNat := by
  have split : ∀ k : LeaseId → Bool, allLeases.countP k = (allLeases.erase id).countP k + (k id).toNat := fun k => by
    rw [(List.perm_cons_erase (mem_allLeases id)).countP_eq, List.countP_cons]
    cases k id <;> rfl
  have rest : (allLeases.erase id).countP f = (allLeases.erase id).countP g :=
    List.countP_congr fun j hj => by rw [h j (((List.nodup_finRange 64).mem_erase_iff.mp hj).1)]
  rw [split f, split g, rest]
  omega

/-- The counts where no slot changes its state or its holder. -/
theorem countsAgree_of_same {s t : State} (hf : t.le.freeSlots = s.le.freeSlots)
    (hl : ∀ id : LeaseId, (t.lease id).state = (s.lease id).state ∧ (t.lease id).holder = (s.lease id).holder)
    (hp : ∀ p : PortId, (t.port p).tombstones = (s.port p).tombstones) (h : CountsAgree s) : CountsAgree t := by
  obtain ⟨free, tombs⟩ := h
  have tomb : ∀ p : PortId, t.tombstoneOf p = s.tombstoneOf p := fun p => funext fun id => by
    unfold State.tombstoneOf
    rw [(hl id).1, (hl id).2]
  refine ⟨?_, fun p => by rw [hp, tombs, tomb]⟩
  rw [hf, free]
  simp only [(hl _).1]

/-- R52: the free-slot count follows the number of FREE slots as one slot changes its state. -/
theorem freeSlotsAfter_eq {n m : Nat} {was now : LeaseState}
    (h : m + (was == .free).toNat = n + (now == .free).toNat) : freeSlotsAfter n was now = m := by
  have free : ∀ x : LeaseState, (x == .free) = decide (x = .free) := fun x => by cases x <;> rfl
  rw [free, free] at h
  unfold freeSlotsAfter
  by_cases hw : was = .free <;> by_cases hn : now = .free <;> simp [hw, hn] at h ⊢ <;> omega

/-- R52, R149: a lease record written takes both counts along. -/
theorem putLease_counts (id : LeaseId) (l : Lease) {s : State} (h : CountsAgree s) : CountsAgree (s.putLease id l) := by
  obtain ⟨free, tombs⟩ := h
  have here : (s.putLease id l).lease id = l := by rw [lease_putLease, if_pos rfl]
  have other : ∀ j, j ≠ id → (s.putLease id l).lease j = s.lease j := fun j hj => by rw [lease_putLease, if_neg hj.symm]
  refine ⟨?_, fun p => ?_⟩
  · have step := countP_allLeases (f := fun j => ((s.putLease id l).lease j).state == .free)
      (g := fun j => (s.lease j).state == .free) id fun j hj => by rw [other j hj]
    rw [here] at step
    rw [freeSlots_putLease, free]
    exact freeSlotsAfter_eq step
  · have step := countP_allLeases (f := (s.putLease id l).tombstoneOf p) (g := s.tombstoneOf p) id fun j hj => by
      rw [State.tombstoneOf, State.tombstoneOf, other j hj]
    have was : s.tombstoneOf p id = decide ((s.lease id).state = .revoked ∧ (s.lease id).holder = p) :=
      Bool.eq_iff_iff.mpr (by simp [State.tombstoneOf])
    have now : (s.putLease id l).tombstoneOf p id = decide (l.state = .revoked ∧ l.holder = p) :=
      Bool.eq_iff_iff.mpr (by simp [State.tombstoneOf, here])
    have counted : s.tombstoneOf p id = true → 0 < allLeases.countP (s.tombstoneOf p) := fun k =>
      List.countP_pos_iff.mpr ⟨id, mem_allLeases id, k⟩
    rw [was, now] at step
    rw [was, decide_eq_true_eq] at counted
    rw [port_putLease]
    dsimp only
    rw [tombs p]
    generalize allLeases.countP (s.tombstoneOf p) = n at step counted ⊢
    by_cases hw : (s.lease id).state = .revoked ∧ (s.lease id).holder = p <;>
      by_cases hn : l.state = .revoked ∧ l.holder = p <;> simp only [hw, hn] at step counted ⊢ <;>
      simp at step counted ⊢ <;> omega

/-! ## Rights -/

/-- R54 to R56: the record `l` may stand in slot `id` beside the other live leases and the waiters. -/
def State.Admits (s : State) (id : LeaseId) (l : Lease) : Prop :=
  l.live = true →
    (∀ j : LeaseId, j ≠ id → (s.lease j).live = true → l.range.overlaps (s.lease j).range = true →
      l.mode = .shared ∧ (s.lease j).mode = .shared ∧ l.holder ≠ (s.lease j).holder) ∧
    ∀ w ∈ s.le.waiters, l.holder = w.requester → l.range.overlaps w.range = false

theorem admits_of_not_live {s : State} {id : LeaseId} {l : Lease} (h : l.live = false) : s.Admits id l := fun k => by
  rw [h] at k
  cases k

/-- The record `l'` holds no right that `l` does not hold. -/
structure Lease.HoldsNoMore (l' l : Lease) : Prop where
  live : l'.live = true → l.live = true
  range : l'.range = l.range
  holder : l'.holder = l.holder
  mode : l'.mode = l.mode ∨ l'.mode = .shared

theorem Lease.HoldsNoMore.refl (l : Lease) : l.HoldsNoMore l := ⟨id, rfl, rfl, .inl rfl⟩

/-- Leases that hold no more than they did, and waiters some of those that waited, keep apart. -/
theorem noConflicts_of_no_more {s t : State}
    (hl : ∀ id : LeaseId, (t.lease id).live = true → (t.lease id).HoldsNoMore (s.lease id))
    (hw : (t.le.waiters.map Waiter.stake).Sublist (s.le.waiters.map Waiter.stake)) (h : NoConflicts s) : NoConflicts t := by
  obtain ⟨leases, mixed, waiters⟩ := h
  have shared : ∀ {m m' : Mode}, m' = m ∨ m' = .shared → m = .shared → m' = .shared := fun k e =>
    k.elim (fun k => k.trans e) id
  refine ⟨fun i j hij hi hj ho => ?_, fun w hw' i hi hh => ?_, ?_⟩
  · have a := hl i hi
    have b := hl j hj
    rw [a.range, b.range] at ho
    obtain ⟨mi, mj, apart⟩ := leases i j hij (a.live hi) (b.live hj) ho
    exact ⟨shared a.mode mi, shared b.mode mj, by rw [a.holder, b.holder]; exact apart⟩
  · have a := hl i hi
    obtain ⟨v, hv, stake⟩ := List.mem_map.mp (hw.subset (List.mem_map_of_mem hw'))
    obtain ⟨requester, range⟩ := Prod.ext_iff.mp stake
    rw [a.range, show w.range = v.range from range.symm]
    exact mixed v hv i (a.live hi) (a.holder.symm.trans (hh.trans requester.symm))
  · have stakes : (s.le.waiters.map Waiter.stake).Pairwise fun a b => a.1 = b.1 → a.2.overlaps b.2 = false :=
      List.pairwise_map.mpr waiters
    exact List.pairwise_map.mp (stakes.sublist hw)

/-- The law of the rights where leases, holders, ranges, modes and waiters stay. -/
theorem noConflicts_of_same {s t : State} (hl : t.le.leases = s.le.leases) (hw : t.le.waiters = s.le.waiters)
    (h : NoConflicts s) : NoConflicts t := by
  refine noConflicts_of_no_more (fun id _ => ?_) (by rw [hw]) h
  have : t.lease id = s.lease id := by unfold State.lease; rw [hl]
  rw [this]
  exact .refl _

/-- R55, R56: a record that may stand in its slot is written there. -/
theorem noConflicts_putLease {id : LeaseId} {l : Lease} {s : State} (ha : s.Admits id l) (h : NoConflicts s) :
    NoConflicts (s.putLease id l) := by
  obtain ⟨leases, mixed, waiters⟩ := h
  refine ⟨fun i j hij hi hj ho => ?_, fun w hw i hi hh => ?_, by rw [waiters_putLease]; exact waiters⟩
  · simp only [lease_putLease] at hi hj ho ⊢
    by_cases ei : id = i
    · subst ei
      rw [if_pos rfl, if_neg hij] at *
      exact (ha hi).1 j hij.symm hj ho
    by_cases ej : id = j
    · subst ej
      rw [if_pos rfl, if_neg ei] at *
      rw [AddrRange.overlaps_comm] at ho
      obtain ⟨mj, mi, apart⟩ := (ha hj).1 i hij hi ho
      exact ⟨mi, mj, apart.symm⟩
    · rw [if_neg ei, if_neg ej] at *
      exact leases i j hij hi hj ho
  · rw [waiters_putLease] at hw
    simp only [lease_putLease] at hi hh ⊢
    by_cases ei : id = i
    · subst ei
      rw [if_pos rfl] at *
      exact (ha hi).2 w hw hh
    · rw [if_neg ei] at *
      exact mixed w hw i hi hh

theorem admits_of_no_more {id : LeaseId} {l : Lease} {s : State} (k : l.HoldsNoMore (s.lease id)) (h : NoConflicts s) :
    s.Admits id l := fun hl => by
  obtain ⟨leases, mixed, _⟩ := h
  have live := k.live hl
  refine ⟨fun j hj hlive ho => ?_, fun w hw hh => ?_⟩
  · rw [k.range] at ho
    obtain ⟨mode, modes, apart⟩ := leases id j hj.symm live hlive ho
    exact ⟨k.mode.elim (fun e => e.trans mode) (fun e => e), modes, by rw [k.holder]; exact apart⟩
  · rw [k.range]
    exact mixed w hw id live (k.holder.symm.trans hh)

/-! ## Changes of other records -/

/-- A change of nothing that either law speaks of. -/
theorem aside_tableKept {s t : State} (hl : t.le.leases = s.le.leases) (hf : t.le.freeSlots = s.le.freeSlots)
    (hw : t.le.waiters = s.le.waiters) (hp : t.ptc.ports = s.ptc.ports) : TableKept s t where
  counts := countsAgree_of_same hf (fun id => by unfold State.lease; rw [hl]; exact ⟨rfl, rfl⟩)
    fun p => by unfold State.port; rw [hp]
  apart := noConflicts_of_same hl hw

theorem updPort_tableKept (p : PortId) {f : Port → Port} {s : State}
    (h : (f (s.port p)).tombstones = (s.port p).tombstones) : TableKept s (s.updPort p f) where
  counts := countsAgree_of_same rfl (fun _ => ⟨rfl, rfl⟩) fun q => by
    rw [port_updPort]
    split
    · next e =>
      subst e
      exact h
    · rfl
  apart := noConflicts_of_same rfl rfl

theorem updRequester_tableKept (p : PortId) (f : Requester → Requester) (s : State) : TableKept s (s.updRequester p f) :=
  updPort_tableKept p rfl

theorem updAccess_tableKept (p : PortId) (f : AccessRecord → AccessRecord) (s : State) : TableKept s (s.updAccess p f) :=
  updPort_tableKept p rfl

theorem answer_tableKept (p : PortId) (x : Answer) (s : State) : TableKept s (s.answer p x) := updPort_tableKept p rfl

theorem placeNotice_tableKept (p : PortId) (tag : Tag) (n : ClaimNotice) (s : State) :
    TableKept s (s.placeNotice p tag n) := updPort_tableKept p rfl

theorem raise_tableKept (e : Event) (s : State) : TableKept s (s.raise e) := aside_tableKept rfl rfl rfl rfl

theorem finish_tableKept (code : BitVec 4) (result : HostResult) (s : State) : TableKept s (s.finish code result) :=
  aside_tableKept rfl rfl rfl rfl

theorem updRegion_tableKept (r : RegionId) (f : Region → Region) (s : State) : TableKept s (s.updRegion r f) :=
  aside_tableKept rfl rfl rfl rfl

theorem updTarget_tableKept (x : TargetId) (f : Target → Target) (s : State) : TableKept s (s.updTarget x f) :=
  aside_tableKept rfl rfl rfl rfl

theorem setHold_tableKept (h : Option BusHold) (s : State) : TableKept s (s.setHold h) := aside_tableKept rfl rfl rfl rfl

/-- R84: waiters that leave, or count down, ask for no more. -/
theorem setWaiters_tableKept {ws : List Waiter} {s : State}
    (h : (ws.map Waiter.stake).Sublist (s.le.waiters.map Waiter.stake)) : TableKept s (s.setWaiters ws) where
  counts := countsAgree_of_same rfl (fun _ => ⟨rfl, rfl⟩) fun _ => rfl
  apart := noConflicts_of_no_more (fun _ _ => .refl _) h

theorem weighSlotsLow_tableKept (n : Nat) (s : State) : TableKept s (s.weighSlotsLow n) := by
  unfold State.weighSlotsLow
  split
  · exact raise_tableKept _ s
  · exact .refl s

/-! ## The Lease Engine -/

theorem putLease_tableKept {id : LeaseId} {l : Lease} {s : State} (h : NoConflicts s → s.Admits id l) :
    TableKept s (s.putLease id l) := ⟨putLease_counts id l, fun k => noConflicts_putLease (h k) k⟩

theorem putLease_tableKept_of_no_more {id : LeaseId} {l : Lease} {s : State} (h : l.HoldsNoMore (s.lease id)) :
    TableKept s (s.putLease id l) := putLease_tableKept (admits_of_no_more h)

theorem putLease_tableKept_of_not_live {id : LeaseId} {l : Lease} {s : State} (h : l.live = false) :
    TableKept s (s.putLease id l) := putLease_tableKept fun _ => admits_of_not_live h

theorem freeLease_tableKept (id : LeaseId) (s : State) : TableKept s (s.freeLease id) :=
  putLease_tableKept_of_not_live rfl

/-- R54, R56: what a claim that conflicts with no live lease, and whose requester has nothing over its range, may be granted. -/
theorem admits_of_claim {id : LeaseId} {l : Lease} {s : State} (hc : s.conflictsLive l.range l.mode = false)
    (hl : ∀ j : LeaseId, (s.lease j).live = true → (s.lease j).holder = l.holder →
      (s.lease j).range.overlaps l.range = false)
    (hw : ∀ w ∈ s.le.waiters, w.requester = l.holder → w.range.overlaps l.range = false) : s.Admits id l := fun _ => by
  refine ⟨fun j _ hlive ho => ?_, fun w hm hh => by rw [AddrRange.overlaps_comm]; exact hw w hm hh.symm⟩
  rw [AddrRange.overlaps_comm] at ho
  have clear : ¬conflict (s.lease j).range (s.lease j).mode l.range l.mode = true := fun k => by
    rw [conflictsLive_iff.mpr ⟨j, hlive, k⟩] at hc
    cases hc
  have modes : (s.lease j).mode = .shared ∧ l.mode = .shared := by
    unfold conflict at clear
    rw [ho] at clear
    cases hm : (s.lease j).mode <;> cases hm' : l.mode <;> simp_all
  refine ⟨modes.2, modes.1, fun e => ?_⟩
  rw [hl j hlive e.symm] at ho
  cases ho

theorem grantLease_tableKept {id : LeaseId} {w : Waiter} {s : State} (hc : s.conflictsLive w.range w.mode = false)
    (hl : ∀ j : LeaseId, (s.lease j).live = true → (s.lease j).holder = w.requester →
      (s.lease j).range.overlaps w.range = false)
    (hw : ∀ v ∈ s.le.waiters, v.requester = w.requester → v.range.overlaps w.range = false) :
    TableKept s (s.grantLease id w.requester w.region w.range w.mode w.priority w.term) :=
  (putLease_tableKept (l := GrantRecord s w id) fun _ => admits_of_claim hc hl hw).trans (weighSlotsLow_tableKept _ _)

/-! ## The grant scan -/

theorem grantWaiter_counts (id : LeaseId) (w : Waiter) {s : State} (h : CountsAgree s) : CountsAgree (s.grantWaiter id w) :=
  (placeNotice_tableKept _ _ _ _).counts ((weighSlotsLow_tableKept _ _).counts (putLease_counts _ _ h))

theorem setWaiters_counts (ws : List Waiter) {s : State} (h : CountsAgree s) : CountsAgree (s.setWaiters ws) :=
  countsAgree_of_same rfl (fun _ => ⟨rfl, rfl⟩) (fun _ => rfl) h

theorem scanWalk_counts (ahead ws : List Waiter) {s : State} (h : CountsAgree s) : CountsAgree (scanWalk ahead ws s) := by
  induction ws generalizing ahead s with
  | nil => exact setWaiters_counts ahead h
  | cons w ws ih =>
    unfold scanWalk
    split
    · exact ih _ h
    split
    · exact ih _ h
    split
    · exact setWaiters_counts _ h
    · exact ih _ (grantWaiter_counts _ w h)

/-- R96, R97: the walk keeps apart the leases and the waiters `ahead ++ ws` of the list, since it grants a waiter only what
conflicts with no live lease, and a waiter overlaps nothing of its own requester. -/
theorem scanWalk_apart (ahead ws : List Waiter) {s : State} (h : NoConflicts (s.setWaiters (ahead ++ ws))) :
    NoConflicts (scanWalk ahead ws s) := by
  induction ws generalizing ahead s with
  | nil => simpa [scanWalk] using h
  | cons w ws ih =>
    have pass : NoConflicts (scanWalk (ahead ++ [w]) ws s) := ih _ (by simpa using h)
    unfold scanWalk
    split
    · exact pass
    split
    · exact pass
    next hc =>
    split
    · exact h
    next id _ =>
    refine ih ahead ?_
    have ⟨_, mixed, waiters⟩ := h
    have fewer : (ahead ++ ws).Sublist (ahead ++ w :: ws) :=
      List.Sublist.append_left (List.sublist_cons_self w ws) ahead
    have rest : NoConflicts (s.setWaiters (ahead ++ ws)) :=
      (setWaiters_tableKept (s := s.setWaiters (ahead ++ w :: ws)) (fewer.map _)).apart h
    have own : ∀ v ∈ ahead ++ ws, v.requester = w.requester → v.range.overlaps w.range = false := fun v hv hr => by
      obtain ⟨_, behind, cross⟩ := List.pairwise_append.mp waiters
      rcases List.mem_append.mp hv with hv | hv
      · exact cross v hv w List.mem_cons_self hr
      · rw [AddrRange.overlaps_comm]
        exact (List.pairwise_cons.mp behind).1 v hv hr.symm
    have clear : (s.setWaiters (ahead ++ ws)).conflictsLive w.range w.mode = false := by
      rw [Bool.or_eq_true, not_or, Bool.not_eq_true] at hc
      exact hc.1
    have granted : NoConflicts ((s.setWaiters (ahead ++ ws)).putLease id (GrantRecord s w id)) :=
      noConflicts_putLease (admits_of_claim clear (mixed w (by simp)) own) rest
    refine noConflicts_of_no_more (fun j _ => ?_) (by simp) granted
    rw [setWaiters_lease, lease_grantWaiter, lease_putLease]
    exact .refl _

theorem grantScan_tableKept (s : State) : TableKept s s.grantScan where
  counts := scanWalk_counts [] _
  apart := scanWalk_apart [] _

theorem settle_tableKept (before : State) {s t : State} (h : TableKept s t) : TableKept s (before.settle t) := by
  unfold State.settle
  split
  · exact h.trans (grantScan_tableKept t)
  · exact h

end Sys2Proof.Machine
end

section
/-! The counts and the rights through every event (R52, R55, R56, R149): lease commands, accesses, resets, ends of accesses, lease
time, host commands, registers and frames; then every step keeps both laws. -/

namespace Sys2Proof.Machine

open Sys2Proof.Safety Sys2Proof.Claims

/-! ## Revocation and requests of PTC -/

theorem revoke_tableKept (x : RevokeReason) (id : LeaseId) (s : State) : TableKept s (s.revoke x id) := by
  unfold State.revoke
  dsimp only
  split
  · exact .refl s
  next h =>
  have held := live_of_held (not_not.mp h)
  split
  · exact putLease_tableKept_of_no_more ⟨fun _ => held, rfl, rfl, .inl rfl⟩
  split
  · exact freeLease_tableKept id s
  · exact putLease_tableKept_of_not_live rfl

theorem revokeAll_tableKept (x : RevokeReason) (which : Lease → Bool) (s : State) : TableKept s (s.revokeAll x which) := by
  refine .foldl (fun s id => ?_) _ s
  split
  · exact revoke_tableKept x id s
  · exact .refl s

theorem clearSlot_tableKept (p : PortId) (id : LeaseId) (s : State) : TableKept s (s.clearSlot p id) := by
  unfold State.clearSlot
  dsimp only
  split
  · exact .refl s
  split
  · exact .refl s
  · exact revoke_tableKept _ id s
  · next h => exact putLease_tableKept_of_no_more ⟨fun _ => by simp [Lease.live, h], rfl, rfl, .inl rfl⟩
  · exact freeLease_tableKept id s

theorem freeTombstones_tableKept (p : PortId) (s : State) : TableKept s (s.freeTombstones p) := by
  refine .foldl (fun s id => ?_) _ s
  split
  · exact freeLease_tableKept id s
  · exact .refl s

theorem removeWaiters_tableKept (out : Waiter → Bool) (s : State) : TableKept s (s.removeWaiters out) :=
  setWaiters_tableKept (List.filter_sublist.map _)

theorem dropWaiters_tableKept (out : Waiter → Bool) (reason : DropReason) (s : State) :
    TableKept s (s.dropWaiters out reason) :=
  (setWaiters_tableKept (List.filter_sublist.map _)).trans
    (.foldl (fun s (w : Waiter) => placeNotice_tableKept w.requester w.tag _ s) _ _)

theorem clearRequest_tableKept (p : PortId) (s : State) : TableKept s (s.clearRequest p) :=
  settle_tableKept s ((TableKept.foldl (fun s id => clearSlot_tableKept p id s) _ s).trans (removeWaiters_tableKept _ _))

theorem barRequest_tableKept (who : PortId → Bool) (s : State) : TableKept s (s.barRequest who) :=
  ((revokeAll_tableKept _ _ s).trans (dropWaiters_tableKept _ _ _)).trans (grantScan_tableKept _)

theorem enterBarring_tableKept (p : PortId) (s : State) : TableKept s (s.enterBarring p) :=
  (updRequester_tableKept p _ s).trans (raise_tableKept _ _)

theorem countFault_tableKept (p : PortId) (s : State) : TableKept s (s.countFault p) := by
  unfold State.countFault
  dsimp only
  split
  · exact (updRequester_tableKept p _ s).trans ((enterBarring_tableKept p _).trans (barRequest_tableKept _ _))
  · exact updRequester_tableKept p _ s

/-! ## Lease commands -/

/-- R56: what `selfOverlap` shows of a range that overlaps nothing of its requester. -/
theorem selfOverlap_eq_false {s : State} {p : PortId} {q : AddrRange} (h : s.selfOverlap p q = false) :
    (∀ j : LeaseId, (s.lease j).live = true → (s.lease j).holder = p → (s.lease j).range.overlaps q = false) ∧
    ∀ w ∈ s.le.waiters, w.requester = p → w.range.overlaps q = false := by
  simpa [State.selfOverlap, Bool.or_eq_false_iff] using h

/-- R85, R56: a claim whose requester has nothing over its range may wait. -/
theorem enterWaiter_tableKept {w : Waiter} {s : State} (h : s.selfOverlap w.requester w.range = false) :
    TableKept s (s.enterWaiter w) where
  counts := countsAgree_of_same rfl (fun _ => ⟨rfl, rfl⟩) fun _ => rfl
  apart := fun ⟨leases, mixed, waiters⟩ => by
    obtain ⟨ownLeases, ownWaiters⟩ := selfOverlap_eq_false h
    have symmetric : ∀ {a b : Waiter}, (a.requester = b.requester → a.range.overlaps b.range = false) →
        b.requester = a.requester → b.range.overlaps a.range = false := fun hab e => by
      rw [AddrRange.overlaps_comm]
      exact hab e.symm
    refine ⟨leases, fun v hv i hi hh => ?_, ?_⟩
    · rcases mem_insertWaiter.mp hv with rfl | hv
      · exact ownLeases i hi hh
      · exact mixed v hv i hi hh
    · refine (insertWaiter_perm _ _).symm.pairwise (List.pairwise_cons.mpr ⟨fun v hv e => ?_, waiters⟩) symmetric
      rw [AddrRange.overlaps_comm]
      exact ownWaiters v hv e.symm

theorem weighClaim_tableKept {w : Waiter} {s : State} (h : s.selfOverlap w.requester w.range = false) :
    TableKept s (s.weighClaim w).1 := by
  unfold State.weighClaim
  dsimp only
  split
  · next clear _ =>
    obtain ⟨ownLeases, ownWaiters⟩ := selfOverlap_eq_false h
    exact grantLease_tableKept (Bool.or_eq_false_iff.mp clear).1 ownLeases ownWaiters
  split
  · exact .refl s
  · exact settle_tableKept s (enterWaiter_tableKept h)

theorem leClaim_tableKept (p : PortId) (w0 w1 w2 : Word) (s : State) : TableKept s (s.leClaim p w0 w1 w2).1 := by
  unfold State.leClaim
  split
  · split
    · exact .refl s
    · next checked =>
      obtain ⟨_, _, _, _, _, alone⟩ := checkClaim_ok checked
      exact weighClaim_tableKept alone
  · exact .refl s

theorem leRenew_tableKept (p : PortId) (w0 : Word) (s : State) : TableKept s (s.leRenew p w0).1 := by
  have early : TableKept s (s.putLease (reqLease w0)
      { s.lease (reqLease w0) with faults := (s.lease (reqLease w0)).faults + 1 }) :=
    putLease_tableKept_of_no_more ⟨id, rfl, rfl, .inl rfl⟩
  have renewed : TableKept s (s.putLease (reqLease w0)
      { s.lease (reqLease w0) with remaining := (s.lease (reqLease w0)).term }) :=
    putLease_tableKept_of_no_more ⟨id, rfl, rfl, .inl rfl⟩
  unfold State.leRenew
  dsimp only
  split
  · exact .refl s
  split
  · split
    · exact settle_tableKept s (early.trans (revoke_tableKept _ _ _))
    · exact early
  split
  · exact .refl s
  · dsimp only
    exact renewed.trans (updRequester_tableKept p _ _)

theorem leRelease_tableKept (p : PortId) (w0 : Word) (s : State) : TableKept s (s.leRelease p w0).1 := by
  have free : TableKept s (s.settle (s.freeLease (reqLease w0))) := settle_tableKept s (freeLease_tableKept _ s)
  unfold State.leRelease
  dsimp only
  split
  · exact .refl s
  split
  · exact .refl s
  split
  · exact free
  · exact free
  · exact .refl s
  · exact .refl s

/-- R69: an upgrade is made where no other requester's live lease overlaps the range; the requester's own leases do not. -/
theorem leUpgrade_tableKept (p : PortId) (w0 : Word) (s : State) : TableKept s (s.leUpgrade p w0).1 := by
  unfold State.leUpgrade
  dsimp only
  split
  · exact .refl s
  next hi =>
  obtain ⟨_, held, rfl⟩ := identity_eq_none.mp hi
  split
  · exact .refl s
  split
  · exact .refl s
  split
  · exact .refl s
  split
  · exact .refl s
  next others =>
  split
  · exact .refl s
  refine putLease_tableKept fun ⟨leases, mixed, _⟩ _ => ⟨fun j hj hlive ho => absurd ?_ others, fun w hw hh =>
    mixed w hw _ (live_of_held held) hh⟩
  obtain ⟨_, _, apart⟩ := leases _ j hj.symm (live_of_held held) hlive ho
  rw [any_allLeases]
  rw [AddrRange.overlaps_comm] at ho
  exact ⟨j, by simp [hlive, ho, apart.symm]⟩

theorem leDowngrade_tableKept (p : PortId) (w0 : Word) (s : State) : TableKept s (s.leDowngrade p w0).1 := by
  unfold State.leDowngrade
  dsimp only
  split
  · exact .refl s
  split
  · exact settle_tableKept s (putLease_tableKept_of_no_more ⟨id, rfl, rfl, .inr rfl⟩)
  · exact .refl s

theorem leWithdraw_tableKept (p : PortId) (w0 : Word) (s : State) : TableKept s (s.leWithdraw p w0).1 := by
  unfold State.leWithdraw
  dsimp only
  split
  · exact settle_tableKept s (removeWaiters_tableKept _ s)
  · exact .refl s

theorem leCommand_tableKept (p : PortId) (s : State) : TableKept s (s.leCommand p).1 := by
  unfold State.leCommand
  dsimp only
  split
  · exact .refl s
  split
  · exact leClaim_tableKept p _ _ _ s
  · exact leRenew_tableKept p _ s
  · exact leRelease_tableKept p _ s
  · exact leUpgrade_tableKept p _ s
  · exact leDowngrade_tableKept p _ s
  · exact leWithdraw_tableKept p _ s
  · exact .refl s
  · exact .refl s
  · exact .refl s

theorem submit_tableKept (p : PortId) (s : State) : TableKept s (s.submit p) := by
  have answered : TableKept s (((s.leCommand p).1.placeReply p (s.leCommand p).2).answer p .writeDone) :=
    ((leCommand_tableKept p s).trans (updPort_tableKept p rfl)).trans (answer_tableKept p _ _)
  unfold State.submit
  dsimp only
  split
  · exact answered.trans (countFault_tableKept p _)
  · exact answered

/-! ## Accesses -/

theorem takeNotice_tombstones (q : Port) : q.takeNotice.tombstones = q.tombstones := by
  unfold Port.takeNotice
  split <;> rfl

theorem windowRead_tableKept (p : PortId) (w : WindowSlot) (s : State) : TableKept s (s.windowRead p w) := by
  unfold State.windowRead
  split
  · exact updPort_tableKept p rfl
  · exact updPort_tableKept p rfl
  · exact updPort_tableKept p (takeNotice_tombstones _)
  all_goals exact .refl s

theorem windowAccess_tableKept (p : PortId) (a : Presentation) (s : State) : TableKept s (s.windowAccess p a) := by
  unfold State.windowAccess
  dsimp only
  split
  · exact (windowRead_tableKept p _ s).trans (answer_tableKept p _ _)
  split
  · exact .trans (updPort_tableKept p rfl) (answer_tableKept p _ _)
  · exact submit_tableKept p s
  all_goals exact answer_tableKept p _ s

theorem refuse_tableKept (p : PortId) (a : Presentation) (f : FaultReason) (s : State) : TableKept s (s.refuse p a f) := by
  unfold State.refuse
  dsimp only
  split
  · exact .trans (updPort_tableKept p rfl) (countFault_tableKept p _)
  · exact updPort_tableKept p rfl

theorem accept_tableKept (p : PortId) (a : Presentation) (region : Option RegionId)
    (lease : Option (LeaseId × Generation)) (cycle : CycleFields) (s : State) :
    TableKept s (s.accept p a region lease cycle) := by
  have flown : ∀ (x : State) (id : LeaseId), TableKept x (x.putLease id { x.lease id with inFlight := true }) :=
    fun _ _ => putLease_tableKept_of_no_more ⟨id, rfl, rfl, .inl rfl⟩
  have counted : ∀ r : RegionId, TableKept s (s.updRegion r fun d => { d with inFlight := d.inFlight + 1 }) :=
    fun r => updRegion_tableKept r _ s
  unfold State.accept
  refine .trans ?_ (updPort_tableKept p rfl)
  cases region with
  | none =>
    cases lease with
    | none => exact .refl s
    | some l => exact flown s l.1
  | some r =>
    cases lease with
    | none => exact counted r
    | some l => exact (counted r).trans (flown _ l.1)

theorem carryOut_tableKept (p : PortId) (a : Presentation) (s : State) : TableKept s (s.carryOut p a) := by
  unfold State.carryOut
  split
  · exact refuse_tableKept p a _ s
  · exact windowAccess_tableKept p a s
  · exact accept_tableKept p a _ _ _ s

theorem takeStanding_tableKept (p : PortId) (s : State) : TableKept s (s.takeStanding p) := by
  unfold State.takeStanding
  split
  · exact .trans (updPort_tableKept p rfl) (carryOut_tableKept p _ _)
  · exact .refl s

theorem present_tableKept (p : PortId) (a : Presentation) (s : State) : TableKept s (s.present p a) := by
  refine (takeStanding_tableKept p s).trans ?_
  unfold State.present
  dsimp only
  split
  · exact carryOut_tableKept p a _
  · exact updPort_tableKept p rfl

theorem submitRow_tableKept (code : Nat) (p : PortId) (be : BitVec 4) (data : Word) (s : State) :
    TableKept s (s.submitRow code p be data) := by
  unfold State.submitRow
  split
  · exact present_tableKept p _ s
  · exact .refl s

/-! ## Resets -/

/-- After a reset every slot is FREE and nobody has a tombstone. -/
theorem countsAgree_of_free {s : State} (hl : ∀ id : LeaseId, (s.lease id).state = .free) (hf : s.le.freeSlots = 64)
    (hp : ∀ p : PortId, (s.port p).tombstones = 0) : CountsAgree s := by
  have all : allLeases.countP (fun id => (s.lease id).state == .free) = allLeases.length :=
    List.countP_eq_length.mpr fun id _ => by rw [hl id]; rfl
  have none : ∀ p : PortId, allLeases.countP (s.tombstoneOf p) = 0 := fun p =>
    List.countP_eq_zero.mpr fun id _ => by rw [State.tombstoneOf, hl id]; exact Bool.false_ne_true
  exact ⟨hf.trans (all.trans (List.length_finRange (n := 64))).symm, fun p => (hp p).trans (none p).symm⟩

theorem noConflicts_of_free {s : State} (hl : ∀ id : LeaseId, (s.lease id).state = .free) (hw : s.le.waiters = []) :
    NoConflicts s := by
  have notLive : ∀ {id : LeaseId}, (s.lease id).live ≠ true := fun {id} k => by
    rw [live_false_of_free (hl id)] at k
    cases k
  refine ⟨fun _ _ _ k => absurd k notLive, fun _ _ _ k => absurd k notLive, ?_⟩
  rw [hw]
  exact .nil

theorem hardwareReset_tableKept (s : State) : TableKept s s.hardwareReset := by
  have free : ∀ id : LeaseId, (s.hardwareReset.lease id).state = .free := fun id => by rw [lease_hardwareReset]; rfl
  have port : ∀ p : PortId, s.hardwareReset.port p = Port.reset p (s.port p).requester.inReset (s.port p).standing :=
    fun p => mapTable_get _ _ p
  exact ⟨fun _ => countsAgree_of_free free rfl fun p => by rw [port]; rfl, fun _ => noConflicts_of_free free rfl⟩

theorem softResetReport_tableKept (s : State) : TableKept s s.softResetReport := by
  have free : ∀ id : LeaseId, (s.completeSoftReset.lease id).state = .free := fun id => by
    rw [lease_completeSoftReset]
    rfl
  unfold State.softResetReport
  split
  · exact ⟨fun _ => countsAgree_of_free free rfl fun p => by rw [port_completeSoftReset]; rfl,
      fun _ => noConflicts_of_free free rfl⟩
  · exact .refl s

/-- R96: a scan leaves a slot as it was, or grants it. -/
theorem lease_scanWalk_or_held (ahead ws : List Waiter) (s : State) (j : LeaseId) :
    (scanWalk ahead ws s).lease j = s.lease j ∨ ((scanWalk ahead ws s).lease j).state = .held := by
  induction ws generalizing ahead s with
  | nil => exact .inl rfl
  | cons w ws ih =>
    unfold scanWalk
    split
    · exact ih _ s
    split
    · exact ih _ s
    split
    · exact .inl rfl
    next id _ =>
    have granted := lease_grantWaiter id w s j
    rcases ih ahead (s.grantWaiter id w) with same | held
    · rw [same, granted]
      split
      · exact .inr rfl
      · exact .inl rfl
    · exact .inr held

/-- R75: a cleared requester has no tombstone. -/
theorem tombstoneOf_clearRequest (p : PortId) (s : State) (id : LeaseId) :
    (s.clearRequest p).tombstoneOf p id = false := by
  have before : ¬(((s.beginClear p).lease id).state = .revoked ∧ ((s.beginClear p).lease id).holder = p) := by
    rw [lease_beginClear]
    split
    · rintro ⟨revoked, _⟩
      rw [silenced_state] at revoked
      split at revoked <;> cases revoked
    · next notCleared => exact fun ⟨revoked, holder⟩ => notCleared ⟨holder, by rw [revoked]; decide⟩
  have after : (s.clearRequest p).lease id = (s.beginClear p).lease id ∨ ((s.clearRequest p).lease id).state = .held := by
    rw [clearRequest_eq]
    unfold State.settle
    split
    · exact lease_scanWalk_or_held [] _ _ id
    · exact .inl rfl
  rw [← Bool.not_eq_true]
  intro tomb
  obtain ⟨revoked, holder⟩ : ((s.clearRequest p).lease id).state = .revoked ∧ ((s.clearRequest p).lease id).holder = p := by
    simpa [State.tombstoneOf] using tomb
  rcases after with same | held
  · rw [same] at revoked holder
    exact before ⟨revoked, holder⟩
  · rw [held] at revoked
    cases revoked

/-- R152, R155: the records of a requester are cleared where it has no tombstone left. -/
theorem clearPort_tableKept {p : PortId} {s : State} (h : ∀ id : LeaseId, s.tombstoneOf p id = false) :
    TableKept s (s.clearPort p) where
  counts := fun ⟨free, tombs⟩ => by
    refine ⟨free, fun q => ?_⟩
    have same : (s.clearPort p).tombstoneOf q = s.tombstoneOf q := rfl
    rw [same, port_clearPort]
    split
    · next e =>
      subst e
      exact (List.countP_eq_zero.mpr fun id _ => by rw [h id]; exact Bool.false_ne_true).symm
    · exact tombs q
  apart := noConflicts_of_same rfl rfl

theorem clearing_tableKept (p : PortId) (s : State) : TableKept s ((s.clearRequest p).clearPort p) :=
  (clearRequest_tableKept p s).trans (clearPort_tableKept (tombstoneOf_clearRequest p s))

theorem assertReset_tableKept (p : PortId) (s : State) : TableKept s (s.assertReset p) := by
  unfold State.assertReset State.enterReset
  exact .trans (updPort_tableKept p rfl) (clearing_tableKept p _)

theorem deassertReset_tableKept (p : PortId) (s : State) : TableKept s (s.deassertReset p) :=
  (updRequester_tableKept p _ s).trans (takeStanding_tableKept p _)

/-! ## Ends of accesses and the bus -/

theorem retireTest_tableKept (r : RegionId) (s : State) : TableKept s (s.retireTest r) := by
  unfold State.retireTest
  split
  · exact (updRegion_tableKept r _ s).trans (finish_tableKept _ _ _)
  · exact .refl s

theorem drainLease_tableKept (id : LeaseId) (s : State) : TableKept s (s.drainLease id) := by
  unfold State.drainLease
  refine settle_tableKept s (.trans ?_ (retireTest_tableKept _ _))
  split
  · exact freeLease_tableKept id s
  · exact putLease_tableKept_of_not_live rfl

theorem endUnder_tableKept (id : LeaseId) (gen : Generation) (s : State) : TableKept s (s.endUnder id gen) := by
  unfold State.endUnder
  dsimp only
  split
  · exact .refl s
  split
  · next held => exact putLease_tableKept_of_no_more ⟨fun _ => live_of_held held, rfl, rfl, .inl rfl⟩
  · exact drainLease_tableKept id s
  · exact .refl s
  · exact .refl s

theorem endAnswer_tableKept (p : PortId) (e : AccessEnd) (s : State) : TableKept s (s.endAnswer p e) := by
  refine updPort_tableKept p ?_
  dsimp only
  split
  · rfl
  · cases e <;> rfl

theorem endRegion_tableKept (r : Option RegionId) (s : State) : TableKept s (s.endRegion r) := by
  cases r with
  | none => exact .refl s
  | some r => exact (updRegion_tableKept r _ s).trans (retireTest_tableKept r _)

theorem endLease_tableKept (l : Option (LeaseId × Generation)) (s : State) : TableKept s (s.endLease l) := by
  cases l with
  | none => exact .refl s
  | some x => exact endUnder_tableKept x.1 x.2 s

theorem endBus_tableKept (p : PortId) (s : State) : TableKept s (s.endBus p) := by
  unfold State.endBus
  split
  · exact (setHold_tableKept none s).trans (softResetReport_tableKept _)
  · exact .refl s

theorem endAccess_tableKept (p : PortId) (e : AccessEnd) (s : State) : TableKept s (s.endAccess p e) :=
  (endAnswer_tableKept p e s).trans
    ((endRegion_tableKept _ _).trans ((endLease_tableKept _ _).trans (endBus_tableKept p _)))

theorem grantDecision_tableKept (s : State) : TableKept s s.grantDecision := by
  unfold State.grantDecision
  split
  · exact .refl s
  split
  · exact .refl s
  next l p _ =>
  have pointed : TableKept s { s with bsq := { s.bsq with pointers := s.bsq.pointers.set l p } } :=
    aside_tableKept rfl rfl rfl rfl
  dsimp only
  split
  · exact pointed.trans (endAccess_tableKept p _ _)
  · exact pointed.trans ((updAccess_tableKept p _ _).trans (setHold_tableKept _ _))

theorem cycleComplete_tableKept (data : Word) (s : State) : TableKept s (s.cycleComplete data) := by
  unfold State.cycleComplete
  split
  · exact .refl s
  next h _ =>
  have counted : ∀ (x : TargetId) (f : Target → Target) (g : AccessRecord → AccessRecord),
      TableKept s ((s.updTarget x f).updAccess h.port g) :=
    fun x f g => (updTarget_tableKept x f s).trans (updAccess_tableKept _ g _)
  dsimp only
  split
  · exact (counted _ _ _).trans (endAccess_tableKept _ _ _)
  split
  · exact (counted _ _ _).trans (endAccess_tableKept _ _ _)
  · exact (counted _ _ _).trans (setHold_tableKept _ _)

theorem countTimeout_tableKept (x : TargetId) (a : Word) (s : State) : TableKept s (s.countTimeout x a) := by
  have timedOut : TableKept s ((s.updTarget x fun r => r.timedOut a).raise .targetTimeout) :=
    (updTarget_tableKept x _ s).trans (raise_tableKept _ _)
  unfold State.countTimeout
  dsimp only
  split
  · exact timedOut.trans ((updTarget_tableKept x _ _).trans (raise_tableKept _ _))
  · exact timedOut

theorem cycleTimeout_tableKept (s : State) : TableKept s s.cycleTimeout := by
  unfold State.cycleTimeout
  split
  · exact .refl s
  dsimp only
  split
  · exact .refl s
  · exact (countTimeout_tableKept _ _ s).trans (endAccess_tableKept _ _ _)

theorem bclkPeriod_tableKept (ready : Bool) (data : Word) (s : State) : TableKept s (s.bclkPeriod ready data) := by
  unfold State.bclkPeriod
  split
  · exact .refl s
  dsimp only
  split
  · exact cycleComplete_tableKept data s
  split
  · exact cycleTimeout_tableKept s
  · exact setHold_tableKept _ s

/-! ## Lease time -/

/-- R106: a lease counted down keeps its state and holds no more. -/
theorem lowerLeases_tableKept (s : State) : TableKept s s.lowerLeases := by
  have lease : ∀ id : LeaseId, s.lowerLeases.lease id = (s.lease id).lowered := fun id => mapTable_get _ _ id
  have same : ∀ l : Lease, l.lowered.state = l.state ∧ l.lowered.holder = l.holder ∧ l.lowered.HoldsNoMore l := fun l => by
    unfold Lease.lowered
    split
    · exact ⟨rfl, rfl, id, rfl, rfl, .inl rfl⟩
    · exact ⟨rfl, rfl, .refl l⟩
  refine ⟨countsAgree_of_same rfl (fun id => ?_) (fun _ => rfl), noConflicts_of_no_more (fun id _ => ?_) (.refl _)⟩
  · rw [lease]
    obtain ⟨state, holder, _⟩ := same (s.lease id)
    exact ⟨state, holder⟩
  · rw [lease]
    exact (same _).2.2

theorem lowerBudgets_tableKept (s : State) : TableKept s s.lowerBudgets :=
  setWaiters_tableKept (by rw [List.map_map]; exact .refl _)

theorem expireLeases_tableKept (s : State) : TableKept s s.expireLeases := by
  unfold State.expireLeases
  split
  · exact (revokeAll_tableKept _ _ s).trans (raise_tableKept _ _)
  · exact .refl s

theorem tick_tableKept (s : State) : TableKept s s.tick := by
  unfold State.tick
  split
  · exact .refl s
  · have loaded : TableKept s { s with divider := tickPeriod s.mgp.tickDiv } := aside_tableKept rfl rfl rfl rfl
    refine loaded.trans (settle_tableKept _ (.trans ?_ (dropWaiters_tableKept _ _ _)))
    exact ((lowerLeases_tableKept _).trans (expireLeases_tableKept _)).trans (lowerBudgets_tableKept _)

theorem expireOne_tableKept (id : LeaseId) (s : State) : TableKept s (s.expireOne id) := by
  unfold State.expireOne
  split
  · exact settle_tableKept s ((revoke_tableKept _ id s).trans (raise_tableKept _ _))
  · exact .refl s

theorem timeOutOne_tableKept (p : PortId) (tag : Tag) (s : State) : TableKept s (s.timeOutOne p tag) :=
  settle_tableKept s (dropWaiters_tableKept _ _ s)

theorem drainOne_tableKept (id : LeaseId) (s : State) : TableKept s (s.drainOne id) := by
  unfold State.drainOne
  split
  · exact drainLease_tableKept id s
  · exact .refl s

theorem refclkPeriod_tableKept (s : State) : TableKept s s.refclkPeriod := by
  unfold State.refclkPeriod
  split
  · exact .refl s
  split
  · exact tick_tableKept s
  · exact aside_tableKept rfl rfl rfl rfl

theorem resumeScan_tableKept (s : State) : TableKept s s.resumeScan := by
  unfold State.resumeScan
  split
  · exact .refl s
  · refine .trans ?_ (grantScan_tableKept _)
    exact aside_tableKept rfl rfl rfl rfl

/-! ## Host commands -/

theorem hostGoLive_tableKept (s : State) : TableKept s s.hostGoLive := by
  unfold State.hostGoLive
  split
  · exact finish_tableKept _ _ s
  · exact aside_tableKept rfl rfl rfl rfl

theorem hostGroupSet_tableKept (arg : BitVec 12) (s : State) : TableKept s (s.hostGroupSet arg) := by
  unfold State.hostGroupSet
  split
  · exact finish_tableKept _ _ s
  dsimp only
  split
  · exact aside_tableKept rfl rfl rfl rfl
  · exact finish_tableKept _ _ s

theorem hostRegionCommit_tableKept (arg : BitVec 12) (s : State) : TableKept s (s.hostRegionCommit arg) := by
  unfold State.hostRegionCommit
  split
  · exact finish_tableKept _ _ s
  split
  · exact finish_tableKept _ _ s
  · exact (updRegion_tableKept _ _ s).trans (finish_tableKept _ _ _)

theorem hostRegionSuspend_tableKept (arg : BitVec 12) (s : State) : TableKept s (s.hostRegionSuspend arg) := by
  unfold State.hostRegionSuspend
  split
  · exact finish_tableKept _ _ s
  split
  · exact (updRegion_tableKept _ _ s).trans (finish_tableKept _ _ _)
  · exact finish_tableKept _ _ s

theorem hostRegionResume_tableKept (arg : BitVec 12) (s : State) : TableKept s (s.hostRegionResume arg) := by
  unfold State.hostRegionResume
  split
  · exact finish_tableKept _ _ s
  split
  · exact (updRegion_tableKept _ _ s).trans (aside_tableKept rfl rfl rfl rfl)
  · exact finish_tableKept _ _ s

theorem hostRegionRetire_tableKept (arg : BitVec 12) (s : State) : TableKept s (s.hostRegionRetire arg) := by
  unfold State.hostRegionRetire
  split
  · exact finish_tableKept _ _ s
  split
  · next r _ _ =>
    have retiring : TableKept s (s.setRetiring r) := aside_tableKept rfl rfl rfl rfl
    have asked : TableKept (s.setRetiring r) ((s.setRetiring r).retireRequest r) :=
      settle_tableKept _ ((revokeAll_tableKept _ _ _).trans (dropWaiters_tableKept _ _ _))
    exact retiring.trans (asked.trans (retireTest_tableKept _ _))
  · exact finish_tableKept _ _ s

theorem hostLeaseRevoke_tableKept (arg : BitVec 12) (s : State) : TableKept s (s.hostLeaseRevoke arg) := by
  unfold State.hostLeaseRevoke
  split
  · exact finish_tableKept _ _ s
  split
  · exact finish_tableKept _ _ s
  · exact (settle_tableKept s (revoke_tableKept _ _ s)).trans (finish_tableKept _ _ _)

theorem hostPurge_tableKept (arg : BitVec 12) (s : State) : TableKept s (s.hostPurge arg) := by
  have emptied : ∀ (p : PortId) (u : State),
      TableKept u (u.updPort p fun q => { q with board := Vector.replicate 4 none }) := fun p _ => updPort_tableKept p rfl
  unfold State.hostPurge
  split
  · exact finish_tableKept _ _ s
  · exact (settle_tableKept s ((freeTombstones_tableKept _ s).trans (emptied _ _))).trans (finish_tableKept _ _ _)

theorem hostPortOnline_tableKept (arg : BitVec 12) (s : State) : TableKept s (s.hostPortOnline arg) := by
  unfold State.hostPortOnline
  split
  · exact finish_tableKept _ _ s
  split
  · exact (updRequester_tableKept _ _ s).trans (finish_tableKept _ _ _)
  · exact finish_tableKept _ _ s

theorem hostPortOffline_tableKept (arg : BitVec 12) (s : State) : TableKept s (s.hostPortOffline arg) := by
  unfold State.hostPortOffline
  split
  · exact finish_tableKept _ _ s
  split
  · exact ((updRequester_tableKept _ _ s).trans (clearing_tableKept _ _)).trans (finish_tableKept _ _ _)
  · exact finish_tableKept _ _ s

theorem hostPortRestore_tableKept (arg : BitVec 12) (s : State) : TableKept s (s.hostPortRestore arg) := by
  unfold State.hostPortRestore
  split
  · exact finish_tableKept _ _ s
  split
  · exact (updRequester_tableKept _ _ s).trans (finish_tableKept _ _ _)
  · exact finish_tableKept _ _ s

theorem hostTargetClear_tableKept (arg : BitVec 12) (s : State) : TableKept s (s.hostTargetClear arg) := by
  unfold State.hostTargetClear
  split
  · exact finish_tableKept _ _ s
  · exact (updTarget_tableKept _ _ s).trans (finish_tableKept _ _ _)

theorem startSoftReset_tableKept (s : State) : TableKept s s.startSoftReset := by
  unfold State.startSoftReset
  refine .trans ?_ (softResetReport_tableKept _)
  refine .trans ?_ (.foldl (fun s p => endAccess_tableKept p _ s) _ _)
  exact aside_tableKept rfl rfl rfl rfl

theorem dispatch_tableKept (code : BitVec 4) (arg : BitVec 12) (s : State) : TableKept s (s.dispatch code arg) := by
  unfold State.dispatch
  split
  · exact hostGoLive_tableKept s
  · exact hostGroupSet_tableKept arg s
  · exact hostRegionCommit_tableKept arg s
  · exact hostRegionSuspend_tableKept arg s
  · exact hostRegionResume_tableKept arg s
  · exact hostRegionRetire_tableKept arg s
  · exact hostLeaseRevoke_tableKept arg s
  · exact hostPortOnline_tableKept arg s
  · exact hostPortOffline_tableKept arg s
  · exact hostPortRestore_tableKept arg s
  · exact hostPurge_tableKept arg s
  · exact hostTargetClear_tableKept arg s
  · exact startSoftReset_tableKept s
  · exact finish_tableKept _ _ s

theorem hostCommand_tableKept (code : BitVec 4) (s : State) : TableKept s (s.hostCommand code) := by
  unfold State.hostCommand
  split
  · refine .trans ?_ (dispatch_tableKept code _ _)
    exact aside_tableKept rfl rfl rfl rfl
  · exact raise_tableKept _ s

/-! ## Registers and frames -/

theorem writeWindowBase_tableKept (v : Word) (s : State) : TableKept s (s.writeWindowBase v) := by
  unfold State.writeWindowBase
  split
  · exact aside_tableKept rfl rfl rfl rfl
  · exact .refl s

theorem writeCrcControl_tableKept (v : Word) (s : State) : TableKept s (s.writeCrcControl v) := by
  unfold State.writeCrcControl
  split
  · exact aside_tableKept rfl rfl rfl rfl
  · exact aside_tableKept rfl rfl rfl rfl
  · exact .refl s

theorem writeFaultConfig_tableKept (v : Word) (s : State) : TableKept s (s.writeFaultConfig v) := by
  unfold State.writeFaultConfig
  dsimp only
  split
  · have inForce : TableKept s { s with ptc := { s.ptc with threshold := field v 0 5, limit := field v 8 3 } } :=
      aside_tableKept rfl rfl rfl rfl
    have lowered := inForce.trans (.foldl (f := fun s p => s.lowerQuarantine p)
      (fun s p => updRequester_tableKept p _ s) allPorts _)
    split
    · refine lowered.trans (.trans ?_ (barRequest_tableKept _ _))
      refine .foldl (fun s p => ?_) allPorts _
      split
      · exact enterBarring_tableKept p s
      · exact .refl s
    · exact lowered
  · exact .refl s

theorem writeRegister_tableKept (n : BitVec 7) (v : Word) (s : State) : TableKept s (s.writeRegister n v) := by
  unfold State.writeRegister
  split
  case h_1 => exact writeCrcControl_tableKept v s
  case h_2 => exact writeWindowBase_tableKept v s
  case h_8 => exact hostCommand_tableKept _ s
  case h_16 | h_17 | h_18 | h_19 => exact updRequester_tableKept _ _ s
  case h_20 => exact writeFaultConfig_tableKept v s
  all_goals exact aside_tableKept rfl rfl rfl rfl

theorem ncsFall_tableKept (s : State) : TableKept s s.ncsFall := by
  unfold State.ncsFall
  split
  · exact aside_tableKept rfl rfl rfl rfl
  · exact .refl s
  · exact .refl s

theorem sckRise_tableKept (sdi : Bool) (s : State) : TableKept s (s.sckRise sdi) := by
  unfold State.sckRise
  split
  · exact aside_tableKept rfl rfl rfl rfl
  · exact .refl s
  · exact .refl s

theorem sckFall_tableKept (s : State) : TableKept s s.sckFall := by
  unfold State.sckFall
  split
  · exact aside_tableKept rfl rfl rfl rfl
  · exact .refl s
  · exact .refl s

theorem takeFrame_tableKept (bits : List Bool) (crc : CrcConfig) (s : State) : TableKept s (s.takeFrame bits crc) := by
  unfold State.takeFrame
  split
  · exact raise_tableKept _ s
  split
  · exact raise_tableKept _ s
  split
  · exact writeRegister_tableKept _ _ s
  · exact .refl s

theorem ncsRise_tableKept (s : State) : TableKept s s.ncsRise := by
  have high : TableKept s (s.setReceiver .high) := aside_tableKept rfl rfl rfl rfl
  unfold State.ncsRise
  split
  · exact high.trans (takeFrame_tableKept _ _ _)
  · exact high
  · exact .refl s

theorem lowPeriod_tableKept (bits : List Bool) (s : State) : TableKept s (s.lowPeriod bits) :=
  ((ncsFall_tableKept s).trans
    (.foldl (fun s b => (sckRise_tableKept b s).trans (sckFall_tableKept _)) bits _)).trans (ncsRise_tableKept _)

/-! ## A step -/

theorem pinEvent_tableKept (e : PinEvent) (s : State) : TableKept s (s.pinEvent e) := by
  cases e with
  | refclk => exact refclkPeriod_tableKept s
  | bclk ready data => exact bclkPeriod_tableKept ready data s
  | ncsFall => exact ncsFall_tableKept s
  | sckRise sdi => exact sckRise_tableKept sdi s
  | sckFall => exact sckFall_tableKept s

theorem idleStep_tableKept (s : State) : TableKept s s.idleStep := by
  unfold State.idleStep
  split
  · exact resumeScan_tableKept s
  split
  · exact takeStanding_tableKept _ s
  split
  · exact grantDecision_tableKept s
  split
  · exact .refl s
  · next e rest _ =>
    have seen : TableKept s { s with inputs := rest } := aside_tableKept rfl rfl rfl rfl
    exact seen.trans (pinEvent_tableKept e _)

/-- Every command keeps both laws. -/
theorem exec_tableKept {c : Instr} {s t : State} (h : exec c s = .next t) : TableKept s t := by
  cases c <;> cases h
  case powerOnReset | nreset => exact hardwareReset_tableKept s
  case rqrstAssertion p => exact assertReset_tableKept p s
  case rqrstDeassertion p => exact deassertReset_tableKept p s
  case tick => exact tick_tableKept s
  case leaseExpiry id => exact expireOne_tableKept id s
  case waitBudgetExpiry p tag => exact timeOutOne_tableKept p tag s
  case busGrantDecision => exact grantDecision_tableKept s
  case deviceCycleComplete data => exact cycleComplete_tableKept data s
  case busTimeoutExpiry => exact cycleTimeout_tableKept s
  case leaseDrainEnd id => exact drainOne_tableKept id s
  case retireCompletion r => exact retireTest_tableKept r s
  case softResetCompletion => exact softResetReport_tableKept s
  case resumeGrantScan => exact resumeScan_tableKept s
  case tableIndexWrite | eventFlagsWrite | eventEnableWrite => exact aside_tableKept rfl rfl rfl rfl
  case windowBaseWrite v => exact writeWindowBase_tableKept v s
  case faultConfigWrite v => exact writeFaultConfig_tableKept v s
  case crcControlWrite v => exact writeCrcControl_tableKept v s
  case registerWrite n v => exact writeRegister_tableKept n v s
  case ncsRise bits => exact lowPeriod_tableKept bits s
  case claim | renew | release | upgrade | downgrade | withdraw | query | lookup => exact submitRow_tableKept _ _ _ _ s
  case accessArrival | requestWrite | resultRead | portStatusRead | noticeRead => exact present_tableKept _ _ s
  all_goals exact hostCommand_tableKept _ s

/-- Settles O52: every lease record is written with its counts, and where a count is set to 0 nothing is left to count. -/
theorem countsAgreeForEver : Obligations.CountsAgreeForEver := fun _ _ hs h =>
  step_keeps (fun s => (idleStep_tableKept s).counts) (fun _ _ hs => hs) (fun _ _ _ h => (exec_tableKept h).counts) h hs

/-- Settles O57: rights are added by a grant, a claim that begins to wait and an upgrade only, each after the checks that keep
conflicting rights apart. -/
theorem noConflictingLeases : Obligations.NoConflictingLeases := fun _ _ hs h =>
  step_keeps (fun s => (idleStep_tableKept s).apart) (fun _ _ hs => hs) (fun _ _ _ h => (exec_tableKept h).apart) h hs

end Sys2Proof.Machine
end

section
/-! The grant scan (R96 to R100, R116): each waiter is granted in its turn the lowest FREE slot left to it, and SLOTS_LOW is raised
where the scan crosses the mark. -/

namespace Sys2Proof.Machine

open Sys2Proof.Safety Sys2Proof.Claims

/-! ## Grants in turn -/

/-- R96, R97: between `s` and `t` a scan granted `w` the lowest FREE slot that the waiters `pre` walked before it were not granted.
Its region is not suspended, and none of `ahead` or `pre` that is left in the list conflicts with it. -/
structure GrantedInTurn (s t : State) (ahead pre : List Waiter) (w : Waiter) : Prop where
  slot : ∃ id : LeaseId, (s.lease id).state = .free ∧ GrantedTo s t w id ∧
    ∀ j : LeaseId, j < id → (s.lease j).state = .free → ∃ v ∈ pre, Left t v ∧ GrantedTo s t v j
  serving : (s.region w.region).state ≠ .suspended
  clear : ∀ v ∈ ahead ++ pre, v ∈ t.le.waiters → conflict v.range v.mode w.range w.mode = false

/-- R97: a waiter granted first holds the slot and its notice after the rest of the walk. -/
theorem Walked.grantedTo_first {w : Waiter} {ws : List Waiter} {s t : State} {id : LeaseId}
    (h : Walked ws (s.grantWaiter id w) t) (hf : (s.lease id).state = .free)
    (hk : t.lease id = (s.grantWaiter id w).lease id)
    (hn : ∀ v ∈ ws, ¬(v.requester = w.requester ∧ v.tag = w.tag)) : GrantedTo s t w id := by
  refine ⟨hk.trans ((lease_grantWaiter id w s id).trans (if_pos rfl)), ?_⟩
  rcases h.board w.requester w.tag with hb | ⟨v, hv, hr, ht, _⟩
  · rw [hb, board_grantWaiter hf, if_pos ⟨rfl, rfl⟩]
  · exact absurd ⟨hr, ht⟩ (hn v hv)

/-- R97: a grant of another slot, seen from before a grant. -/
theorem grantedTo_of_grantWaiter {v w : Waiter} {s t : State} {id j : LeaseId} (hj : id ≠ j)
    (h : GrantedTo (s.grantWaiter id w) t v j) : GrantedTo s t v j := by
  obtain ⟨hl, hb⟩ := h
  have same : (s.grantWaiter id w).lease j = s.lease j := (lease_grantWaiter id w s j).trans (if_neg hj)
  exact ⟨hl.trans (GrantRecord_eq same (by rw [(grantWaiter_leaseWork id w s).region])), by rw [hb, same]⟩

/-- R96: the walk goes on past a waiter that it leaves in the list. -/
theorem GrantedInTurn.pass {u w : Waiter} {ahead pre : List Waiter} {s t : State}
    (h : GrantedInTurn s t (ahead ++ [u]) pre w) : GrantedInTurn s t ahead (u :: pre) w where
  slot := by
    obtain ⟨id, free, granted, lower⟩ := h.slot
    refine ⟨id, free, granted, fun j hj hf => ?_⟩
    obtain ⟨v, hv, k⟩ := lower j hj hf
    exact ⟨v, List.mem_cons_of_mem u hv, k⟩
  serving := h.serving
  clear v hv := h.clear v (by simpa using hv)

/-- R96, R97: the walk goes on after it granted the waiter `u` the lowest FREE slot. -/
theorem GrantedInTurn.after_grant {u w : Waiter} {ahead pre : List Waiter} {s t : State} {id : LeaseId}
    (h : GrantedInTurn (s.grantWaiter id u) t ahead pre w) (granted : GrantedTo s t u id) (left : Left t u) :
    GrantedInTurn s t ahead (u :: pre) w where
  slot := by
    obtain ⟨k, free, here, lower⟩ := h.slot
    have other : ∀ {j : LeaseId}, id ≠ j → (s.grantWaiter id u).lease j = s.lease j := fun {j} hj =>
      (lease_grantWaiter id u s j).trans (if_neg hj)
    have apart : id ≠ k := fun e => by
      rw [← e, lease_grantWaiter, if_pos rfl] at free
      cases free
    refine ⟨k, other apart ▸ free, grantedTo_of_grantWaiter apart here, fun j hj hf => ?_⟩
    by_cases e : id = j
    · exact ⟨u, List.mem_cons_self, left, e ▸ granted⟩
    · obtain ⟨v, hv, leaves, grants⟩ := lower j hj (by rw [other e]; exact hf)
      exact ⟨v, List.mem_cons_of_mem u hv, leaves, grantedTo_of_grantWaiter e grants⟩
  serving := by
    have := h.serving
    rwa [(grantWaiter_leaseWork id u s).region] at this
  clear v hv hm := by
    rcases List.mem_append.mp hv with hv | hv
    · exact h.clear v (List.mem_append_left _ hv) hm
    rcases List.mem_cons.mp hv with rfl | hv
    · exact absurd ⟨rfl, rfl⟩ (left v hm)
    · exact h.clear v (List.mem_append_right _ hv) hm

/-- R96, R97: every waiter that leaves in a walk was granted in its turn. -/
theorem scanWalk_inTurn (ahead ws : List Waiter) (s : State) (hk : KeysUnique (ahead ++ ws)) {pre post : List Waiter}
    {w : Waiter} (hs : ws = pre ++ w :: post) (left : Left (scanWalk ahead ws s) w) :
    GrantedInTurn s (scanWalk ahead ws s) ahead pre w := by
  induction ws generalizing ahead s pre with
  | nil => simp at hs
  | cons u ws ih =>
    have pass : Left (scanWalk (ahead ++ [u]) ws s) w → GrantedInTurn s (scanWalk (ahead ++ [u]) ws s) ahead pre w := by
      intro left
      cases pre with
      | nil =>
        obtain ⟨rfl, _⟩ := List.cons.inj hs
        exact absurd ⟨rfl, rfl⟩ (left u ((ahead_scanWalk_sublist (ahead ++ [u]) ws s).subset (by simp)))
      | cons v pre =>
        obtain ⟨rfl, rest⟩ := List.cons.inj hs
        exact (ih _ s (by simpa using hk) rest left).pass
    unfold scanWalk at left ⊢
    split at left
    · next suspended =>
      rw [if_pos suspended]
      exact pass left
    next serving =>
    rw [if_neg serving]
    split at left
    · next blocked =>
      rw [if_pos blocked]
      exact pass left
    next clear =>
    rw [if_neg clear]
    split at left
    · exact absurd ⟨rfl, rfl⟩ (left w (List.mem_append_right _ (by rw [hs]; simp)))
    next id lowest =>
    have free := lowestFree_state lowest
    have record : ((s.grantWaiter id u).lease id).state = .held := by rw [lease_grantWaiter, if_pos rfl]
    obtain ⟨_, hws, hcross⟩ := List.pairwise_append.mp hk
    obtain ⟨hn, _⟩ := List.pairwise_cons.mp hws
    have keys : KeysUnique (ahead ++ ws) := hk.sublist (List.Sublist.append_left (List.sublist_cons_self u ws) ahead)
    have granted : GrantedTo s (scanWalk ahead ws (s.grantWaiter id u)) u id :=
      (scanWalk_walked ahead ws _ keys).grantedTo_first free (lease_scanWalk_of_ne_free _ _ _ _ (by rw [record]; decide))
        fun v hv k => hn v hv ⟨k.1.symm, k.2.symm⟩
    have leaves : Left (scanWalk ahead ws (s.grantWaiter id u)) u := fun v hv k => by
      rcases List.mem_append.mp ((waiters_scanWalk_sublist ahead ws _).subset hv) with hv | hv
      · exact hcross v hv u List.mem_cons_self k
      · exact hn v hv ⟨k.1.symm, k.2.symm⟩
    cases pre with
    | nil =>
      obtain ⟨rfl, _⟩ := List.cons.inj hs
      refine ⟨⟨id, free, granted, fun j hj hf => ?_⟩, serving, fun v hv _ => ?_⟩
      · obtain ⟨_, lower⟩ := find_allLeases_iff.mp lowest
        have := lower j hj
        rw [hf] at this
        cases this
      · rw [Bool.or_eq_true, not_or, Bool.not_eq_true, Bool.not_eq_true] at clear
        rw [List.append_nil] at hv
        simpa using List.any_eq_false.mp clear.2 v hv
    | cons v pre =>
      obtain ⟨rfl, rest⟩ := List.cons.inj hs
      exact (ih ahead _ keys rest left).after_grant granted leaves

/-! ## SLOTS_LOW (R116) -/

theorem slotsLow_weighSlotsLow (n : Nat) (s : State) :
    (s.weighSlotsLow n).flagged .slotsLow = (s.flagged .slotsLow ||
      (decide (s.mgp.slotsLowMark.toNat < n) && decide (s.le.freeSlots ≤ s.mgp.slotsLowMark.toNat))) := by
  unfold State.weighSlotsLow
  split
  · next crossed =>
    rw [flagged_raise]
    simp [crossed, show Event.slotsLow.mask.getLsbD Event.slotsLow.bit = true from by decide]
  · next notCrossed => simpa using fun above below => absurd ⟨above, below⟩ notCrossed

/-- R116: between `s` and `t` the free-slot count did not rise, and SLOTS_LOW was raised if it crossed the mark. -/
structure LowWeighed (s t : State) : Prop where
  count : t.le.freeSlots ≤ s.le.freeSlots
  mark : t.mgp.slotsLowMark = s.mgp.slotsLowMark
  flag : t.flagged .slotsLow = (s.flagged .slotsLow ||
    (decide (s.mgp.slotsLowMark.toNat < s.le.freeSlots) && decide (t.le.freeSlots ≤ s.mgp.slotsLowMark.toNat)))

/-- R116: with the same count nothing is crossed. -/
theorem LowWeighed.same {s t : State} (hf : t.le.freeSlots = s.le.freeSlots) (hm : t.mgp = s.mgp) : LowWeighed s t where
  count := hf.le
  mark := by rw [hm]
  flag := by
    have notCrossed : ¬(s.mgp.slotsLowMark.toNat < s.le.freeSlots ∧ s.le.freeSlots ≤ s.mgp.slotsLowMark.toNat) := by omega
    rw [← Bool.decide_and, hf, decide_eq_false notCrossed, Bool.or_false]
    unfold State.flagged
    rw [hm]

/-- R116: a falling count crosses the mark once at most. -/
theorem LowWeighed.trans {s t u : State} (h : LowWeighed s t) (k : LowWeighed t u) : LowWeighed s u where
  count := k.count.trans h.count
  mark := k.mark.trans h.mark
  flag := by
    have first := h.count
    have second := k.count
    rw [k.flag, h.flag, h.mark, Bool.eq_iff_iff]
    by_cases raised : s.flagged .slotsLow = true <;> simp [raised]
    omega

/-- R52, R116: a grant into a FREE slot lowers the free-slot count by one, weighed against the mark. -/
theorem grantWaiter_lowWeighed {id : LeaseId} {s : State} (hf : (s.lease id).state = .free) (w : Waiter) :
    LowWeighed s (s.grantWaiter id w) := by
  have fewer : ∀ l : Lease, l.state = .held → (s.putLease id l).le.freeSlots = s.le.freeSlots - 1 := fun l hl => by
    rw [freeSlots_putLease, hf, hl]
    rfl
  have count : (s.grantWaiter id w).le.freeSlots = s.le.freeSlots - 1 := by
    unfold State.grantWaiter State.grantLease
    rw [placeNotice_le, le_weighSlotsLow, fewer _ rfl]
  refine ⟨by omega, by rw [(grantWaiter_leaseWork id w s).mgp], ?_⟩
  rw [count]
  unfold State.grantWaiter State.grantLease
  refine (slotsLow_weighSlotsLow _ _).trans ?_
  rw [fewer _ rfl]
  unfold State.flagged
  rw [mgp_putLease]

theorem scanWalk_lowWeighed (ahead ws : List Waiter) (s : State) : LowWeighed s (scanWalk ahead ws s) := by
  induction ws generalizing ahead s with
  | nil => exact .same rfl rfl
  | cons w ws ih =>
    unfold scanWalk
    split
    · exact ih _ s
    split
    · exact ih _ s
    split
    · exact .same rfl rfl
    · next lowest => exact (grantWaiter_lowWeighed (lowestFree_state lowest) w).trans (ih ahead _)

/-! ## The scan whole -/

theorem overlaps_iff_meets {q q' : AddrRange} : q.overlaps q' = true ↔ Meets q.start q.exp.toNat q' :=
  AddrRange.overlaps_iff

/-- R50: a live lease. -/
theorem live_iff {l : Lease} : l.live = true ↔ l.state = .held ∨ l.state = .draining := by simp [Lease.live]

/-- R54: conflict, in the rule's words. -/
theorem conflict_iff {q q' : AddrRange} {m m' : Mode} :
    conflict q m q' m' = true ↔ Meets q.start q.exp.toNat q' ∧ (m = .exclusive ∨ m' = .exclusive) := by
  unfold conflict
  rw [Bool.and_eq_true, overlaps_iff_meets]
  simp

/-- R96: a port after a scan keeps everything but its board, and the board all but notices to waiters of its own that left. -/
theorem grantScan_portKept {s : State} (hk : KeysUnique s.le.waiters) (p : PortId) : PortKept s s.grantScan p := by
  have walked := grantScan_walked hk
  refine ⟨?_, walked.board p⟩
  have port := (grantScan_leaseWork s).port p
  rwa [walked.tombstones p] at port

theorem grantScan_quiet {s : State} (hk : KeysUnique s.le.waiters) : Quiet s s.grantScan [.slotsLow] :=
  ⟨(grantScan_leaseWork s).eq, fun e he => (grantScan_walked hk).flags e (by simpa using he)⟩

/-- Settles O31: the scan waiter by waiter along its walk, slot by slot, and the mark by the count it starts and ends with. -/
theorem grantScanServesInOrder : Obligations.GrantScanServesInOrder := by
  intro s q q' m m' l hunique
  have keys : KeysUnique s.le.waiters := hunique.1
  have walked := grantScan_walked keys
  have inTurn : ∀ (pre post : List Waiter) (w : Waiter), s.le.waiters = pre ++ w :: post → Left s.grantScan w →
      GrantedInTurn s s.grantScan [] pre w := fun pre post w hs left => scanWalk_inTurn [] _ s keys hs left
  exact ⟨overlaps_iff_meets, live_iff, conflict_iff, waiters_grantScan_sublist s, lease_grantScan_of_ne_free s,
    walked.grants, fun pre post w hs left => (inTurn pre post w hs left).slot,
    fun pre post w hs left => ⟨(inTurn pre post w hs left).serving, (inTurn pre post w hs left).clear⟩,
    grantScan_done s, grantScan_portKept keys, grantScan_quiet keys, (scanWalk_lowWeighed [] _ s).flag⟩

end Sys2Proof.Machine
end

section
/-! The lease commands taken at LE (R59, R145): the command a live map takes by its code, and the common checks NOT_LIVE and
BAD_COMMAND. -/

namespace Sys2Proof.Machine

open Sys2Proof.Safety Sys2Proof.Claims

/-! ## The write at SUBMIT -/

/-- R143, R145: a ready requester's aligned write at SUBMIT reaches LE in its own event. -/
theorem present_submit {s : State} {p : PortId} {be : BitVec 4} (h : WindowOpen s p) (hb : alignedEnables be = true)
    (data : Word) : s.present p (s.windowPresentation .write 0x10 be data) = s.submit p := by
  obtain ⟨⟨hi, hr, hs⟩, hq, hu, hw⟩ := h
  rw [present_window hi hr hs hq hu hw hb (by decide) (by decide) .write data]
  unfold State.windowAccess State.windowPresentation
  dsimp only
  rw [windowSlot_submit hw hb]

/-- R145: a lease command row whose code stands in REQUEST0 is that write, in either state of the map. -/
theorem exec_leaseRow_submit {s : State} {p : PortId} {be : BitVec 4} {code : Fin 9} (h : WindowOpen s p)
    (hb : alignedEnables be = true) (h1 : 1 ≤ code) (hc : reqCode (s.port p).request[0] = code.val) (data : Word) :
    exec (leaseRow code p be data) s = .next (s.submit p) := by
  have ⟨⟨_, _, hs⟩, _⟩ := h
  rw [exec_leaseRow h1, submitRow_of_none_taken _ be data (.inl hs), if_pos hc, present_submit h hb]

/-- R145: with the command's reply, the row of a command that reaches LE ends in the mailbox. -/
theorem exec_of_reply {s t : State} {p : PortId} {be : BitVec 4} {code : Fin 9} {r : Reply} (h : Submits s p be code.val)
    (h1 : 1 ≤ code) (data : Word) (hl : s.leCommand p = (t, r)) (hr : r.code ≠ .earlyRevoked) :
    exec (leaseRow code p be data) s = .next (Answered p r t) := by
  obtain ⟨hopen, hb, _, hc⟩ := h
  rw [exec_leaseRow_submit hopen hb h1 hc, submit_of_reply hl hr]

/-! ## The command by its code (R59) -/

theorem leCommand_of_boot {s : State} (h : s.mu.map = .boot) (p : PortId) :
    s.leCommand p = (s, { Reply.plain .notLive with lease := s.namedLease (s.port p).request[0] }) := if_pos h

section Live

variable {s : State} {p : PortId} (hl : s.mu.map = .live)
include hl

theorem leCommand_claim (hc : reqCode (s.port p).request[0] = 1) :
    s.leCommand p = s.leClaim p (s.port p).request[0] (s.port p).request[1] (s.port p).request[2] := by
  simp [State.leCommand, hl, hc]

theorem leCommand_renew (hc : reqCode (s.port p).request[0] = 2) : s.leCommand p = s.leRenew p (s.port p).request[0] := by
  simp [State.leCommand, hl, hc]

theorem leCommand_release (hc : reqCode (s.port p).request[0] = 3) :
    s.leCommand p = s.leRelease p (s.port p).request[0] := by
  simp [State.leCommand, hl, hc]

theorem leCommand_upgrade (hc : reqCode (s.port p).request[0] = 4) :
    s.leCommand p = s.leUpgrade p (s.port p).request[0] := by
  simp [State.leCommand, hl, hc]

theorem leCommand_downgrade (hc : reqCode (s.port p).request[0] = 5) :
    s.leCommand p = s.leDowngrade p (s.port p).request[0] := by
  simp [State.leCommand, hl, hc]

theorem leCommand_query (hc : reqCode (s.port p).request[0] = 7) : s.leCommand p = s.leQuery (s.port p).request[0] := by
  simp [State.leCommand, hl, hc]

theorem leCommand_lookup (hc : reqCode (s.port p).request[0] = 8) :
    s.leCommand p = s.leLookup p (s.port p).request[1] := by
  simp [State.leCommand, hl, hc]

/-- R59: an undefined code. -/
theorem leCommand_undefined (hn : reqCode (s.port p).request[0] = 0 ∨ 9 ≤ reqCode (s.port p).request[0]) :
    s.leCommand p = (s, Reply.plain .badCommand) := by
  unfold State.leCommand
  dsimp only
  rw [if_neg (by rw [hl]; decide)]
  split
  case h_9 => rfl
  all_goals omega

end Live

/-- Log 14: an undefined code names no lease. -/
theorem namedLease_undefined {w0 : Word} (h : reqCode w0 = 0 ∨ 9 ≤ reqCode w0) (s : State) : s.namedLease w0 = none := by
  unfold State.namedLease
  split
  case h_6 => rfl
  all_goals omega

/-- Settles O16: the write reaches LE, which looks at the map's state first and then at the code. -/
theorem leaseCommandsCommonChecks : Obligations.LeaseCommandsCommonChecks := by
  intro s p be data code hopen hb
  have ⟨ready, _⟩ := hopen
  refine ⟨fun hboot h1 hc => ?_, fun hn => ?_⟩
  · refine ⟨{ Reply.plain .notLive with lease := s.namedLease (s.port p).request[0] }, rfl, rfl, rfl, rfl, ?_⟩
    rw [exec_leaseRow_submit hopen hb h1 hc,
      submit_of_reply (leCommand_of_boot hboot p) (show ResultCode.notLive ≠ .earlyRevoked by decide)]
  · have arrival : exec (.accessArrival p (s.windowPresentation .write 0x10 be data)) s = .next (s.submit p) :=
      congrArg Host.Outcome.next (present_submit hopen hb data)
    refine arrival.trans (congrArg Host.Outcome.next ?_)
    cases hm : s.mu.map with
    | boot =>
      rw [submit_of_reply (leCommand_of_boot hm p) (show ResultCode.notLive ≠ .earlyRevoked by decide),
        namedLease_undefined hn]
      rfl
    | live =>
      rw [submit_of_reply (leCommand_undefined hm hn) (by decide)]
      rfl

end Sys2Proof.Machine
end

section
/-! CLAIM (R15, R61 to R64, R82, R85): where its range goes, the checks in order, and a checked claim weighed for its slot. -/

namespace Sys2Proof.Machine

open Sys2Proof.Safety Sys2Proof.Claims

/-! ## Where the range goes (R15) -/

theorem overlaps_of_covers_self {r q : AddrRange} (h : r.covers q = true) : r.overlaps q = true := by
  obtain ⟨lo, hi⟩ := AddrRange.covers_iff.mp h
  have := q.lo_lt_hi
  exact AddrRange.overlaps_iff.mpr ⟨by omega, by omega⟩

/-- R15: where a range goes, in the rule's words. -/
theorem decodeRange_goes (m : MapUnit) (q : AddrRange) : RangeGoes m q (m.decodeRange q) := by
  have inGroup : ∀ {g : GroupId},
      ((m.groups[g]).valid = true ∧ Claims.Holds (m.groups[g]).base (m.groups[g]).exp.toNat q) ↔
        m.groupHolds q g = true := by
    intro g
    rw [groupHolds_iff, AddrRange.covers_iff]
    rfl
  have window : Meets m.windowBase 12 q ↔ m.window.overlaps q = true := (overlaps_iff_meets (q := m.window)).symm
  have member : ∀ {g : GroupId} {r : RegionId}, r.val / 8 = g.val ↔ groupOf r = g :=
    fun {g r} => (Fin.ext_iff (a := groupOf r) (b := g)).symm
  have covers : ∀ {r : RegionId}, (m.extent r).covers q = true ↔
      Claims.Holds ((m.groups[groupOf r]).base + (m.regions[r]).offset) (m.regions[r]).exp.toNat q := AddrRange.covers_iff
  have meets : ∀ {g : GroupId} {r : RegionId}, groupOf r = g → (m.slotMeets q r = true ↔
      (m.regions[r]).state ≠ .invalid ∧
        Meets ((m.groups[g]).base + (m.regions[r]).offset) (m.regions[r]).exp.toNat q) := by
    rintro _ r rfl
    rw [slotMeets_iff, overlaps_iff_meets]
    rfl
  refine ⟨fun h => ?_, fun live clear g hg alone => ⟨fun r ⟨⟨hr, state⟩, holds, lower⟩ => ?_, fun unnamed => ?_⟩⟩
  · cases hd : m.decodeRange q with
    | none => rfl
    | some r =>
      obtain ⟨⟨live, clear⟩, ⟨group, _⟩, _⟩ := decodeRange_eq_some_iff.mp hd
      rcases h with boot | hw | noGroup
      · rw [boot] at live
        cases live
      · rw [window.mp hw] at clear
        cases clear
      · exact absurd (inGroup.mpr group) (noGroup _)
  · obtain rfl := member.mp hr
    have covered := covers.mpr holds
    refine decodeRange_eq_some_iff.mpr ⟨⟨live, Bool.eq_false_of_not_eq_true fun k => clear (window.mpr k)⟩,
      ⟨inGroup.mp hg, fun h hlt => Bool.eq_false_of_not_eq_true fun k => alone h hlt.ne (inGroup.mpr k)⟩,
      ⟨slotMeets_iff.mpr ⟨state, overlaps_of_covers_self covered⟩, fun k hk same => ?_⟩, covered⟩
    refine Bool.eq_false_of_not_eq_true fun lies => ?_
    obtain ⟨used, meet⟩ := (meets same).mp lies
    exact lower k hk ⟨member.mpr same, used⟩ meet
  · cases hd : m.decodeRange q with
    | none => rfl
    | some r =>
      obtain ⟨_, ⟨group, _⟩, ⟨lies, lower⟩, covered⟩ := decodeRange_eq_some_iff.mp hd
      have same : groupOf r = g := by_contra fun ne => alone _ ne (inGroup.mpr group)
      subst same
      refine absurd ⟨⟨member.mpr rfl, ((meets rfl).mp lies).1⟩, covers.mp covered, fun k hk ⟨hg, used⟩ meet => ?_⟩
        (unnamed r)
      have same := member.mp hg
      exact Bool.false_ne_true ((lower k hk same).symm.trans ((meets same).mpr ⟨used, meet⟩))

/-! ## The fields and the checks (R61) -/

theorem claimInRange_iff {w0 w1 : Word} :
    claimInRange w0 w1 = true ↔ 8 ≤ (reqRange w0 w1).exp.toNat ∧ (reqRange w0 w1).exp.toNat ≤ 32 ∧
      (reqRange w0 w1).start.toNat % 2 ^ (reqRange w0 w1).exp.toNat = 0 ∧ (reqMode w0).isSome = true := by
  simp [claimInRange, AddrRange.aligned, and_assoc]

theorem leClaim_of_out {w0 w1 : Word} (h : ¬claimInRange w0 w1 = true) (p : PortId) (w2 : Word) (s : State) :
    s.leClaim p w0 w1 w2 = (s, Reply.plain .badCommand) := by
  unfold State.leClaim
  rw [Bool.eq_false_of_not_eq_true h]
  cases reqMode w0 <;> rfl

/-- R61, R62: what a checked claim asks for, with its priority capped. -/
def State.claimOf (s : State) (p : PortId) (w0 w1 w2 : Word) (m : Mode) (r : RegionId) : Waiter :=
  { requester := p, tag := reqTag w0, region := r, range := reqRange w0 w1, mode := m
    priority := s.cappedPriority p (reqPriority w0), term := reqTerm w2, budget := reqBudget w2, arrival := 0#16 }

section Checks

variable {s : State} {p : PortId} {w0 w1 w2 : Word} {m : Mode} (hm : reqMode w0 = some m)
  (hr : claimInRange w0 w1 = true)
include hm hr

theorem leClaim_of_error {c : ResultCode} (hc : s.checkClaim p (reqTag w0) (reqRange w0 w1) m = .error c) :
    s.leClaim p w0 w1 w2 = (s, Reply.plain c) := by
  unfold State.leClaim
  rw [hm, hr]
  dsimp only
  rw [hc]

theorem leClaim_of_ok {r : RegionId} (hc : s.checkClaim p (reqTag w0) (reqRange w0 w1) m = .ok r) :
    s.leClaim p w0 w1 w2 = s.weighClaim (s.claimOf p w0 w1 w2 m r) := by
  unfold State.leClaim
  rw [hm, hr]
  dsimp only
  rw [hc]
  rfl

end Checks

theorem tagBusy_iff {s : State} {p : PortId} {tag : Tag} :
    s.tagBusy p tag = true ↔
      (∃ w ∈ s.le.waiters, w.requester = p ∧ w.tag = tag) ∨ ((s.port p).board[tag]).isSome = true := by
  simp [State.tagBusy]

theorem selfOverlap_iff {s : State} {p : PortId} {q : AddrRange} :
    s.selfOverlap p q = true ↔
      (∃ j : LeaseId, (s.lease j).live = true ∧ (s.lease j).holder = p ∧ (s.lease j).range.overlaps q = true) ∨
      ∃ w ∈ s.le.waiters, w.requester = p ∧ w.range.overlaps q = true := by
  simp [State.selfOverlap, and_assoc]

/-- R61 check 1: a range that goes nowhere. -/
theorem checkClaim_of_none {s : State} {q : AddrRange} (hd : s.mu.decodeRange q = none) (p : PortId) (tag : Tag)
    (m : Mode) : s.checkClaim p tag q m = .error .badRange := by
  unfold State.checkClaim
  rw [hd]

/-- R61 checks 2 to 6, in the slot the range goes to. -/
theorem checkClaim_of_some {s : State} {q : AddrRange} {r : RegionId} (hd : s.mu.decodeRange q = some r) (p : PortId)
    (tag : Tag) (m : Mode) :
    s.checkClaim p tag q m =
      if (s.region r).state ≠ .active then .error .regionInactive
      else if (s.region r).policy = .openAccess then .error .notLeasable
      else if (s.region r).rights[p] = .none ∨ (m = .exclusive ∧ (s.region r).rights[p] = .read) then .error .rights
      else if s.tagBusy p tag then .error .tagBusy
      else if s.selfOverlap p q then .error .selfOverlap
      else .ok r := by
  unfold State.checkClaim
  rw [hd]

/-- R61 check 4: the rights that the mode needs. -/
theorem rights_lacking_iff {x : Rights} {m : Mode} :
    (x = .none ∨ (m = .exclusive ∧ x = .read)) ↔ ¬(x = .readWrite ∨ (x = .read ∧ m = .shared)) := by
  cases x <;> cases m <;> decide

/-- Settles O18: the fields first, then where the range goes, then the checks of its slot one by one. -/
theorem claimIsRefusedInOrder : Obligations.ClaimIsRefusedInOrder := by
  intro s p be data
  refine ⟨decodeRange_goes _ _, fun h => ?_⟩
  have ⟨_, _, hl, hc⟩ := h
  have answers : ∀ {c : ResultCode}, c ≠ .earlyRevoked →
      s.leClaim p (s.port p).request[0] (s.port p).request[1] (s.port p).request[2] = (s, Reply.plain c) →
      exec (.claim p be data) s = .next (Answered p (Reply.plain c) s) := fun hne k =>
    exec_of_reply (code := 1) h (by decide) data ((leCommand_claim hl hc).trans k) hne
  refine ⟨claimInRange_iff, fun out => ?_, fun fits none => ?_, fun fits r hd => ?_⟩
  · exact answers (by decide) (leClaim_of_out (fun k => out (claimInRange_iff.mp k)) p _ s)
  all_goals
    have ranged := claimInRange_iff.mpr fits
    obtain ⟨_, _, _, isMode⟩ := fits
    obtain ⟨m, hm⟩ := Option.isSome_iff_exists.mp isMode
  · exact answers (by decide) (leClaim_of_error hm ranged (checkClaim_of_none none p _ m))
  have checks := checkClaim_of_some hd p (reqTag (s.port p).request[0]) m
  have mode : ((s.region r).rights[p] = .readWrite ∨
      ((s.region r).rights[p] = .read ∧ reqMode (s.port p).request[0] = some .shared)) ↔
      ((s.region r).rights[p] = .readWrite ∨ ((s.region r).rights[p] = .read ∧ m = .shared)) := by
    rw [hm, Option.some_inj]
  refine ⟨fun active => ?_, fun active leasable => ?_, fun active leasable rights => ?_,
    fun active leasable rights busy => ?_, fun active leasable rights busy overlap => ?_,
    fun active leasable rights busy overlap m' hm' => ?_⟩
  · exact answers (by decide) (leClaim_of_error hm ranged (checks.trans (if_pos active)))
  all_goals rw [if_neg (not_not_intro active)] at checks
  · exact answers (by decide) (leClaim_of_error hm ranged (checks.trans (if_pos (not_not.mp leasable))))
  all_goals rw [if_neg leasable] at checks
  · have lacking := rights_lacking_iff.mpr fun k => rights (mode.mpr k)
    exact answers (by decide) (leClaim_of_error hm ranged (checks.trans (if_pos lacking)))
  all_goals rw [if_neg (fun k => rights_lacking_iff.mp k (mode.mp rights))] at checks
  · exact answers (by decide) (leClaim_of_error hm ranged (checks.trans (if_pos (tagBusy_iff.mpr busy))))
  all_goals rw [if_neg (fun k => busy (tagBusy_iff.mp k))] at checks
  · exact answers (by decide) (leClaim_of_error hm ranged (checks.trans (if_pos (selfOverlap_iff.mpr overlap))))
  · rw [if_neg (fun k => overlap (selfOverlap_iff.mp k))] at checks
    obtain rfl : m = m' := Option.some_inj.mp (hm.symm.trans hm')
    exact checks

end Sys2Proof.Machine
end

section
/-! A checked CLAIM weighed for its slot (R53, R54, R63, R64, R82, R116): granted at once, turned away, or waiting. -/

namespace Sys2Proof.Machine

open Sys2Proof.Safety Sys2Proof.Claims

/-! ## A slot taken -/

/-- R53: a FREE slot taken by a live lease. -/
theorem putLease_of_free {id : LeaseId} {l : Lease} {s : State} (h : (s.lease id).state = .free) (k : l.live = true) :
    s.putLease id l =
      { s with le := { s.le with leases := s.le.leases.set id l, freeSlots := s.le.freeSlots - 1 } } := by
  have used : l.state ≠ .free ∧ l.state ≠ .revoked :=
    ⟨fun e => by simp [live_false_of_free e] at k, fun e => by simp [live_false_of_revoked e] at k⟩
  unfold State.putLease State.countTombstone State.uncountTombstone freeSlotsAfter
  simp only [h, used, if_true, if_false, ne_eq, reduceCtorEq, not_false_eq_true, and_self]

/-- R116: the flags once the free-slot count is weighed against the mark. -/
theorem weighSlotsLow_eq (before : Nat) (s : State) :
    s.weighSlotsLow before =
      { s with mgp := { s.mgp with
          flags := if s.mgp.slotsLowMark.toNat < before ∧ s.le.freeSlots ≤ s.mgp.slotsLowMark.toNat then
            s.mgp.flags ||| 0b1000000000#10 else s.mgp.flags } } := by
  unfold State.weighSlotsLow
  split <;> rfl

/-- R52: the lowest FREE slot. -/
theorem lowestFree_iff {s : State} {id : LeaseId} :
    s.lowestFree = some id ↔ (s.lease id).state = .free ∧ ∀ j : LeaseId, j < id → (s.lease j).state ≠ .free := by
  unfold State.lowestFree
  simp [find_allLeases_iff]

theorem lowestFree_none_iff {s : State} : s.lowestFree = none ↔ ∀ j : LeaseId, (s.lease j).state ≠ .free := by
  unfold State.lowestFree
  simp

/-! ## The weighing -/

/-- R54: a claim is blocked by the live leases and the waiters that it conflicts with. -/
theorem claim_blocked_iff {s : State} {q : AddrRange} {m : Mode} :
    (s.conflictsLive q m || conflictsWaiter s.le.waiters q m) = true ↔
      (∃ j : LeaseId, (s.lease j).live = true ∧ conflict (s.lease j).range (s.lease j).mode q m = true) ∨
      ∃ w ∈ s.le.waiters, conflict w.range w.mode q m = true := by
  rw [Bool.or_eq_true, conflictsLive_iff]
  simp [conflictsWaiter]

section Weigh

variable {s : State} {w : Waiter}

/-- R63: nothing in its way, and a slot for it. -/
theorem weighClaim_of_clear {id : LeaseId}
    (hb : ¬(s.conflictsLive w.range w.mode || conflictsWaiter s.le.waiters w.range w.mode) = true)
    (hl : s.lowestFree = some id) :
    s.weighClaim w = (s.grantLease id w.requester w.region w.range w.mode w.priority w.term,
      Reply.ofLease .granted id ((s.lease id).generation + 1#4)) := by
  unfold State.weighClaim
  rw [Bool.eq_false_of_not_eq_true hb, hl]

/-- R64: a blocked claim that may not wait. -/
theorem weighClaim_of_blocked
    (hb : (s.conflictsLive w.range w.mode || conflictsWaiter s.le.waiters w.range w.mode) = true) (h0 : w.budget = 0) :
    s.weighClaim w = (s, Reply.plain .conflict) := by
  unfold State.weighClaim
  rw [hb]
  exact if_pos h0

/-- R64: only a slot is missing, for a claim that may not wait. -/
theorem weighClaim_of_full
    (hb : ¬(s.conflictsLive w.range w.mode || conflictsWaiter s.le.waiters w.range w.mode) = true)
    (hl : s.lowestFree = none) (h0 : w.budget = 0) : s.weighClaim w = (s, Reply.plain .noSlot) := by
  unfold State.weighClaim
  rw [Bool.eq_false_of_not_eq_true hb, hl]
  exact if_pos h0

/-- R64: a claim that cannot be granted and may wait. -/
theorem weighClaim_of_waits
    (h : (s.conflictsLive w.range w.mode || conflictsWaiter s.le.waiters w.range w.mode) = true ∨ s.lowestFree = none)
    (h0 : w.budget ≠ 0) :
    s.weighClaim w = (s.settle (s.enterWaiter w), { Reply.plain .queued with tag := some w.tag }) := by
  unfold State.weighClaim
  cases hb : s.conflictsLive w.range w.mode || conflictsWaiter s.le.waiters w.range w.mode with
  | true => exact if_neg h0
  | false =>
    rw [h.resolve_left (by simp [hb])]
    exact if_neg h0

/-- R82: where a new waiter stands. -/
theorem insertWaiter_eq (w : Waiter) (ws : List Waiter) :
    insertWaiter w ws = (ws.takeWhile fun v => decide (w.priority ≤ v.priority)) ++
      w :: ws.dropWhile fun v => decide (w.priority ≤ v.priority) := by
  induction ws with
  | nil => rfl
  | cons v ws ih =>
    unfold insertWaiter
    split
    · next le => simp [le, ih]
    · next lt => simp [lt]

/-- R94: a waiter that joins calls for a scan. -/
theorem settle_enterWaiter (w : Waiter) (s : State) : s.settle (s.enterWaiter w) = (s.enterWaiter w).grantScan := by
  have longer : (s.enterWaiter w).le.waiters.length = s.le.waiters.length + 1 := (insertWaiter_perm _ _).length_eq
  refine settle_of_due ?_
  unfold scanDue
  simp [longer]

end Weigh

/-- Settles O17: the weighing finds nothing in the claim's way and takes the lowest FREE slot. -/
theorem claimIsGrantedAtOnce : Obligations.ClaimIsGrantedAtOnce := by
  intro s p be data m r id h w0 w2 q hm ranged checked clear ahead free lower
  have ⟨_, _, hl, hc⟩ := h
  have unblocked : ¬(s.conflictsLive q m || conflictsWaiter s.le.waiters q m) = true := fun k => by
    rcases claim_blocked_iff.mp k with ⟨j, live, hit⟩ | ⟨w, hw, hit⟩
    · exact absurd ((clear j live).symm.trans hit) Bool.false_ne_true
    · exact absurd ((ahead w hw).symm.trans hit) Bool.false_ne_true
  have claimed := (leCommand_claim hl hc).trans (leClaim_of_ok hm ranged checked)
  have granted := claimed.trans (weighClaim_of_clear unblocked (lowestFree_iff.mpr ⟨free, lower⟩))
  refine (exec_of_reply (code := 1) h (by decide) data granted ResultCode.noConfusion).trans ?_
  unfold State.grantLease
  dsimp only
  rw [putLease_of_free free rfl, weighSlotsLow_eq]
  rfl

/-- Settles O19: what the weighing answers a claim that is blocked, or for which no slot is FREE. -/
theorem claimWaitsOrIsTurnedAway : Obligations.ClaimWaitsOrIsTurnedAway := by
  intro s p be data m r h w0 w2 q hm ranged checked blocked full budget plain
  have ⟨_, _, hl, hc⟩ := h
  have claimed := (leCommand_claim hl hc).trans (leClaim_of_ok hm ranged checked)
  have isBlocked : (s.conflictsLive q m || conflictsWaiter s.le.waiters q m) = true ↔ blocked := claim_blocked_iff
  have answers : ∀ {t : State} {reply : Reply}, reply.code ≠ .earlyRevoked →
      s.weighClaim (s.claimOf p w0 (s.port p).request[1] w2 m r) = (t, reply) →
      exec (.claim p be data) s = .next (Answered p reply t) := fun hne k =>
    exec_of_reply (code := 1) h (by decide) data (claimed.trans k) hne
  refine ⟨fun clear k h0 => ?_, fun k h0 => ?_, fun k h0 => ?_⟩
  · exact answers ResultCode.noConfusion
      (weighClaim_of_full (fun k => clear (isBlocked.mp k)) (lowestFree_none_iff.mpr k) h0)
  · exact answers ResultCode.noConfusion (weighClaim_of_blocked (isBlocked.mpr k) h0)
  · have waits := weighClaim_of_waits (w := s.claimOf p w0 (s.port p).request[1] w2 m r)
      (k.imp isBlocked.mpr lowestFree_none_iff.mpr) h0
    rw [settle_enterWaiter] at waits
    refine (answers ResultCode.noConfusion waits).trans ?_
    unfold State.enterWaiter
    rw [insertWaiter_eq]
    rfl

end Sys2Proof.Machine
end

section
/-! RELEASE, UPGRADE and DOWNGRADE (R60, R67, R69, R70): what each does to the lease it names, and when a scan follows. -/

namespace Sys2Proof.Machine

open Sys2Proof.Safety Sys2Proof.Claims

/-! ## A slot freed -/

/-- R53, R149: a tombstone is freed, and its holder counts one fewer. -/
theorem freeLease_of_revoked {id : LeaseId} {s : State} (h : (s.lease id).state = .revoked) :
    s.freeLease id = Tombstones (s.lease id).holder (· - 1) (Freed id s) := by
  unfold State.freeLease State.putLease State.countTombstone State.uncountTombstone freeSlotsAfter Lease.freeWith
  simp only [h, if_true, if_false, ne_eq, reduceCtorEq, not_true_eq_false, not_false_eq_true, and_self]
  rfl

/-- R94: a slot that becomes FREE calls for a scan. -/
theorem settle_freeLease {id : LeaseId} {s : State} (h : (s.lease id).state ≠ .free) :
    s.settle (s.freeLease id) = (s.freeLease id).grantScan := by
  refine settle_of_due ?_
  unfold scanDue
  rw [Bool.or_eq_true]
  refine .inr (any_allLeases.mpr ⟨id, ?_⟩)
  rw [lease_freeLease, if_pos rfl]
  simp [slotTriggers, h, Lease.freeWith]

/-! ## RELEASE (R67) -/

section Release

variable {s : State} {p : PortId} {w0 : Word}

theorem leRelease_of_stale (h : (s.lease (reqLease w0)).generation ≠ reqGeneration w0) :
    s.leRelease p w0 = (s, Reply.ofLease .stale (reqLease w0) (reqGeneration w0)) := if_pos h

variable (hg : (s.lease (reqLease w0)).generation = reqGeneration w0)
include hg

theorem leRelease_of_notHeld (h : (s.lease (reqLease w0)).holder ≠ p ∨ (s.lease (reqLease w0)).state = .free ∨
      (s.lease (reqLease w0)).state = .draining) :
    s.leRelease p w0 = (s, Reply.ofLease .notHeld (reqLease w0) (reqGeneration w0)) := by
  unfold State.leRelease
  dsimp only
  rw [if_neg (not_not_intro hg)]
  split
  · rfl
  · next mine =>
    rcases h.resolve_left mine with k | k <;> rw [k]

variable (hp : (s.lease (reqLease w0)).holder = p)
include hp

theorem leRelease_of_held (h : (s.lease (reqLease w0)).state = .held) :
    s.leRelease p w0 = ((Freed (reqLease w0) s).grantScan, Reply.ofLease .ok (reqLease w0) (reqGeneration w0)) := by
  unfold State.leRelease
  dsimp only
  rw [if_neg (not_not_intro hg), if_neg (not_not_intro hp), h]
  dsimp only
  rw [settle_freeLease (by simp [h]), freeLease_of_live (by simp [Lease.live, h])]

theorem leRelease_of_revoked (h : (s.lease (reqLease w0)).state = .revoked) :
    s.leRelease p w0 = ((Tombstones p (· - 1) (Freed (reqLease w0) s)).grantScan,
      { Reply.ofLease .late (reqLease w0) (reqGeneration w0) with reason := (s.lease (reqLease w0)).reason }) := by
  unfold State.leRelease
  dsimp only
  rw [if_neg (not_not_intro hg), if_neg (not_not_intro hp), h]
  dsimp only
  rw [settle_freeLease (by simp [h]), freeLease_of_revoked h, hp]

end Release

/-- Settles O21: by the generation, the holder and the state of the slot. -/
theorem releaseEndsALease : Obligations.ReleaseEndsALease := by
  intro s p be data h w0 id gen l reply
  have ⟨_, _, hl, hc⟩ := h
  have answers : ∀ {t : State} {r : Reply}, r.code ≠ .earlyRevoked → s.leRelease p w0 = (t, r) →
      exec (.release p be data) s = .next (Answered p r t) := fun hne k =>
    exec_of_reply (code := 3) h (by decide) data ((leCommand_release hl hc).trans k) hne
  refine ⟨fun stale => ?_, fun hg other => ?_, fun hg hp held => ?_, fun hg hp revoked => ?_⟩
  · exact answers ResultCode.noConfusion (leRelease_of_stale stale)
  · exact answers ResultCode.noConfusion (leRelease_of_notHeld hg other)
  · exact answers ResultCode.noConfusion (leRelease_of_held hg hp held)
  · exact answers ResultCode.noConfusion (leRelease_of_revoked hg hp revoked)

/-! ## The identity checks (R60) -/

theorem identity_of_stale {s : State} {id : LeaseId} {gen : Generation} (h : (s.lease id).generation ≠ gen) (p : PortId) :
    s.identity p id gen = some .stale := if_pos h

theorem identity_of_notHeld {s : State} {p : PortId} {id : LeaseId} {gen : Generation}
    (hg : (s.lease id).generation = gen)
    (h : ¬((s.lease id).generation = gen ∧ (s.lease id).state = .held ∧ (s.lease id).holder = p)) :
    s.identity p id gen = some .notHeld := by
  have other : (s.lease id).state ≠ .held ∨ (s.lease id).holder ≠ p :=
    not_and_or.mp fun mine => h ⟨hg, mine⟩
  exact (if_neg (not_not_intro hg)).trans (if_pos other)

section Modes

variable {s : State} {p : PortId} {w0 : Word}

theorem leUpgrade_of_some {c : ResultCode} (h : s.identity p (reqLease w0) (reqGeneration w0) = some c) :
    s.leUpgrade p w0 = (s, Reply.ofLease c (reqLease w0) (reqGeneration w0)) := by
  unfold State.leUpgrade
  dsimp only
  rw [h]

theorem leDowngrade_of_some {c : ResultCode} (h : s.identity p (reqLease w0) (reqGeneration w0) = some c) :
    s.leDowngrade p w0 = (s, Reply.ofLease c (reqLease w0) (reqGeneration w0)) := by
  unfold State.leDowngrade
  dsimp only
  rw [h]

variable (h : s.identity p (reqLease w0) (reqGeneration w0) = none)
include h

theorem leUpgrade_of_none :
    s.leUpgrade p w0 =
      let reply := fun c => Reply.ofLease c (reqLease w0) (reqGeneration w0)
      let l := s.lease (reqLease w0)
      if l.mode = .exclusive then (s, reply .ok)
      else if (s.region l.region).rights[p] ≠ .readWrite then (s, reply .rights)
      else if (s.region l.region).state ≠ .active then (s, reply .regionInactive)
      else if (allLeases.any fun j =>
          (s.lease j).live && (s.lease j).holder != p && (s.lease j).range.overlaps l.range) = true then (s, reply .conflict)
      else if (s.le.waiters.any fun w => w.range.overlaps l.range) = true then (s, reply .waitersAhead)
      else (s.putLease (reqLease w0) { l with mode := .exclusive }, reply .ok) := by
  unfold State.leUpgrade
  dsimp only
  rw [h]

theorem leDowngrade_of_none :
    s.leDowngrade p w0 =
      let l := s.lease (reqLease w0)
      if l.mode = .exclusive then
        (s.settle (s.putLease (reqLease w0) { l with mode := .shared }), Reply.ofLease .ok (reqLease w0) (reqGeneration w0))
      else (s, Reply.ofLease .ok (reqLease w0) (reqGeneration w0)) := by
  unfold State.leDowngrade
  dsimp only
  rw [h]

end Modes

/-- A HELD lease changes its record and stays HELD. -/
theorem putLease_of_held {id : LeaseId} {l : Lease} {s : State} (h : (s.lease id).state = .held) (k : l.state = .held) :
    s.putLease id l = SetLease id l s := putLease_eq (by simp [h, k]) (by simp [h]) (by simp [k])

/-- R94: a live lease that goes from EXCLUSIVE to SHARED calls for a scan. -/
theorem settle_shared {id : LeaseId} {s : State} (h : (s.lease id).state = .held) (hm : (s.lease id).mode = .exclusive) :
    s.settle (s.putLease id { s.lease id with mode := .shared }) =
      (SetLease id { s.lease id with mode := .shared } s).grantScan := by
  rw [putLease_of_held (l := { s.lease id with mode := .shared }) h h]
  refine settle_of_due ?_
  unfold scanDue
  rw [Bool.or_eq_true]
  refine .inr (any_allLeases.mpr ⟨id, ?_⟩)
  rw [lease_setLease, if_pos rfl]
  simp [slotTriggers, Lease.live, h, hm]

/-- Settles O22: the identity checks, and then the mode and the checks of R69 in their order. -/
theorem upgradeAndDowngrade : Obligations.UpgradeAndDowngrade := by
  intro s p be data w0 id gen l d reply mine others waited
  have passes : mine → s.identity p id gen = none := fun ⟨hg, held, hp⟩ => identity_eq_none.mpr ⟨hg, held, hp⟩
  have notExclusive : l.mode = .shared → ¬l.mode = .exclusive := fun shared k => nomatch shared.symm.trans k
  refine ⟨fun h => ?_, fun h => ?_⟩
  · have ⟨_, _, hl, hc⟩ := h
    have answers : ∀ {t : State} {r : Reply}, r.code ≠ .earlyRevoked → s.leUpgrade p w0 = (t, r) →
        exec (.upgrade p be data) s = .next (Answered p r t) := fun hne k =>
      exec_of_reply (code := 4) h (by decide) data ((leCommand_upgrade hl hc).trans k) hne
    refine ⟨fun stale => ?_, fun hg other => ?_, fun own exclusive => ?_, fun own shared => ?_⟩
    · exact answers ResultCode.noConfusion (leUpgrade_of_some (identity_of_stale stale p))
    · exact answers ResultCode.noConfusion (leUpgrade_of_some (identity_of_notHeld hg other))
    · exact answers ResultCode.noConfusion ((leUpgrade_of_none (passes own)).trans (if_pos exclusive))
    have checks := (leUpgrade_of_none (passes own)).trans (if_neg (notExclusive shared))
    have ⟨_, held, _⟩ := own
    have conflicts : (allLeases.any fun j =>
        (s.lease j).live && (s.lease j).holder != p && (s.lease j).range.overlaps l.range) = true ↔ others := by
      rw [any_allLeases]
      simp [others, and_assoc]
    have waits : (s.le.waiters.any fun w => w.range.overlaps l.range) = true ↔ waited := List.any_eq_true
    refine ⟨fun rights => ?_, fun rights => ⟨fun state => ?_, fun state hit => ?_, fun state clear ahead => ?_,
      fun state clear behind => ?_⟩⟩
    · exact answers ResultCode.noConfusion (checks.trans (if_pos rights))
    all_goals replace checks := checks.trans (if_neg (not_not_intro rights))
    · exact answers ResultCode.noConfusion (checks.trans (if_pos state))
    all_goals replace checks := checks.trans (if_neg (not_not_intro state))
    · exact answers ResultCode.noConfusion (checks.trans (if_pos (conflicts.mpr hit)))
    all_goals replace checks := checks.trans (if_neg fun k => clear (conflicts.mp k))
    · exact answers ResultCode.noConfusion (checks.trans (if_pos (waits.mpr ahead)))
    · refine answers ResultCode.noConfusion ((checks.trans (if_neg fun k => behind (waits.mp k))).trans ?_)
      exact congrArg (·, reply .ok) (putLease_of_held held held)
  · have ⟨_, _, hl, hc⟩ := h
    have answers : ∀ {t : State} {r : Reply}, r.code ≠ .earlyRevoked → s.leDowngrade p w0 = (t, r) →
        exec (.downgrade p be data) s = .next (Answered p r t) := fun hne k =>
      exec_of_reply (code := 5) h (by decide) data ((leCommand_downgrade hl hc).trans k) hne
    refine ⟨fun stale => ?_, fun hg other => ?_, fun own shared => ?_, fun own exclusive => ?_⟩
    · exact answers ResultCode.noConfusion (leDowngrade_of_some (identity_of_stale stale p))
    · exact answers ResultCode.noConfusion (leDowngrade_of_some (identity_of_notHeld hg other))
    · exact answers ResultCode.noConfusion
        ((leDowngrade_of_none (passes own)).trans (if_neg (notExclusive shared)))
    · have ⟨_, held, _⟩ := own
      refine answers ResultCode.noConfusion (((leDowngrade_of_none (passes own)).trans (if_pos exclusive)).trans ?_)
      exact congrArg (·, reply .ok) (settle_shared held exclusive)

end Sys2Proof.Machine
end

section
/-! QUERY and LOOKUP (R71, R72): their words field by field (Tables 10-5 and 10-6). -/

namespace Sys2Proof.Machine

open Sys2Proof.Safety Sys2Proof.Claims

/-! ## QUERY (R71) -/

theorem queryWord_fields (l : Lease) :
    let w := queryWord l
    field w 0 2 = l.state.code ∧ field w 2 4 = l.generation.toNat ∧ field w 6 2 = l.holder.val ∧
    field w 8 1 = l.mode.code ∧ field w 9 6 = l.range.exp.toNat ∧ field w 16 3 = reasonCode l.reason ∧
    field w 20 4 = l.faults % 16 := by
  unfold queryWord
  simp (disch := decide) only [field_or, field_place_self, field_place_disjoint, Nat.or_zero, Nat.zero_or]
  exact ⟨Nat.mod_eq_of_lt (LeaseState.code_lt _), Nat.mod_eq_of_lt l.generation.isLt, Nat.mod_eq_of_lt l.holder.isLt,
    Nat.mod_eq_of_lt (Mode.code_lt _), Nat.mod_eq_of_lt l.range.exp.isLt, Nat.mod_eq_of_lt (reasonCode_lt _), rfl⟩

/-- A count in the low half of a word. -/
theorem place_low (n : Nat) : place n 0 16 = BitVec.ofNat 32 (n % 65536) := by
  unfold place
  apply BitVec.eq_of_toNat_eq
  simp

theorem leQuery_eq (w0 : Word) (s : State) :
    s.leQuery w0 = (s, { Reply.ofLease .ok (reqLease w0) (s.lease (reqLease w0)).generation with
      data := #v[queryWord (s.lease (reqLease w0)), (s.lease (reqLease w0)).range.start,
        BitVec.ofNat 32 ((s.lease (reqLease w0)).remaining % 65536)] }) := by
  unfold State.leQuery
  dsimp only
  rw [place_low]

/-! ## LOOKUP (R72) -/

/-- RESULT_DATA0 [11:0] of LOOKUP: the region. -/
def regionPart (s : State) (p : PortId) : Option RegionId → Word
  | none => 0#32
  | some r =>
    place r.val 0 5 ||| place 1 5 1 ||| place (s.region r).state.code 6 2 ||| place (s.region r).policy.code 8 2 |||
      place ((s.region r).rights[p]).code 10 2

/-- RESULT_DATA0 [23:12] of LOOKUP: the requester's own lease. -/
def ownPart (s : State) : Option LeaseId → Word
  | none => 0#32
  | some id => place 1 12 1 ||| place id.val 13 6 ||| place (s.lease id).generation.toNat 20 4

section Parts

variable (s : State) (p : PortId)

theorem lookupWord_eq (x : Word) :
    s.lookupWord p x = regionPart s p (s.lookupSlot p x) ||| ownPart s (s.ownLease p x) |||
      place (s.othersCode p (unitOf x)) 24 2 ||| place (s.le.waiters.countP fun w => w.range.overlaps (unitOf x)) 26 5 := by
  unfold State.lookupWord regionPart ownPart
  cases s.lookupSlot p x <;> cases s.ownLease p x <;> rfl

theorem field_regionPart_disjoint {r : Option RegionId} {lo len : Nat} (h : 12 ≤ lo) :
    field (regionPart s p r) lo len = 0 := by
  cases r with
  | none => exact field_zero lo len
  | some r =>
    unfold regionPart
    simp (disch := omega) only [field_or, field_place_disjoint, Nat.or_zero]

theorem field_ownPart_disjoint {id : Option LeaseId} {lo len : Nat} (h : lo + len ≤ 12 ∨ 24 ≤ lo) :
    field (ownPart s id) lo len = 0 := by
  cases id with
  | none => exact field_zero lo len
  | some id =>
    unfold ownPart
    simp (disch := omega) only [field_or, field_place_disjoint, Nat.or_zero]

/-- A field of the word within the bits of the region. -/
theorem field_lookupWord_region (x : Word) {lo len : Nat} (h : lo + len ≤ 12) :
    field (s.lookupWord p x) lo len = field (regionPart s p (s.lookupSlot p x)) lo len := by
  rw [lookupWord_eq]
  simp (disch := omega) only [field_or, field_place_disjoint, field_ownPart_disjoint, Nat.or_zero]

/-- A field of the word within the bits of the own lease. -/
theorem field_lookupWord_own (x : Word) {lo len : Nat} (low : 12 ≤ lo) (high : lo + len ≤ 24) :
    field (s.lookupWord p x) lo len = field (ownPart s (s.ownLease p x)) lo len := by
  rw [lookupWord_eq]
  simp (disch := omega) only [field_or, field_place_disjoint, field_regionPart_disjoint, Nat.or_zero, Nat.zero_or]

theorem othersCode_lt (u : AddrRange) : s.othersCode p u < 2 ^ 2 := by
  unfold State.othersCode
  dsimp only
  split
  · decide
  · split <;> decide

theorem field_lookupWord_others (x : Word) :
    field (s.lookupWord p x) 24 2 = s.othersCode p (unitOf x) ∧
    field (s.lookupWord p x) 26 5 = (s.le.waiters.countP fun w => w.range.overlaps (unitOf x)) % 32 := by
  rw [lookupWord_eq]
  simp (disch := decide) only [field_or, field_place_self, field_place_disjoint, field_regionPart_disjoint,
    field_ownPart_disjoint, Nat.or_zero, Nat.zero_or]
  exact ⟨Nat.mod_eq_of_lt (othersCode_lt s p _), rfl⟩

theorem regionPart_some (r : RegionId) :
    let w := regionPart s p (some r)
    field w 0 5 = r.val ∧ field w 5 1 = 1 ∧ field w 6 2 = (s.region r).state.code ∧
    field w 8 2 = (s.region r).policy.code ∧ field w 10 2 = ((s.region r).rights[p]).code := by
  simp (disch := decide) only [regionPart, field_or, field_place_self, field_place_disjoint, Nat.or_zero, Nat.zero_or]
  exact ⟨Nat.mod_eq_of_lt r.isLt, rfl, Nat.mod_eq_of_lt (RegionState.code_lt _), Nat.mod_eq_of_lt (Policy.code_lt _),
    Nat.mod_eq_of_lt (Rights.code_lt _)⟩

theorem ownPart_some (id : LeaseId) :
    let w := ownPart s (some id)
    field w 12 1 = 1 ∧ field w 13 6 = id.val ∧ field w 20 4 = (s.lease id).generation.toNat := by
  simp (disch := decide) only [ownPart, field_or, field_place_self, field_place_disjoint, Nat.or_zero, Nat.zero_or]
  exact ⟨rfl, Nat.mod_eq_of_lt id.isLt, Nat.mod_eq_of_lt (s.lease id).generation.isLt⟩

/-- R72: a live lease of another requester over the unit. -/
def Others (u : AddrRange) (j : LeaseId) : Prop :=
  (s.lease j).live = true ∧ (s.lease j).holder ≠ p ∧ (s.lease j).range.overlaps u = true

theorem mem_others {u : AddrRange} {j : LeaseId} :
    j ∈ (allLeases.filter fun id => (s.lease id).live && (s.lease id).holder != p && (s.lease id).range.overlaps u) ↔
      Others s p u j := by
  simp [Others, and_assoc]

theorem othersCode_eq_two_iff {u : AddrRange} :
    s.othersCode p u = 2 ↔ ∃ j, Others s p u j ∧ (s.lease j).mode = .exclusive := by
  have exclusive : ((allLeases.filter fun id => (s.lease id).live && (s.lease id).holder != p &&
      (s.lease id).range.overlaps u).any fun id => (s.lease id).mode == .exclusive) = true ↔
      ∃ j, Others s p u j ∧ (s.lease j).mode = .exclusive := by
    simp only [List.any_eq_true, mem_others, beq_iff_eq]
  unfold State.othersCode
  rw [← exclusive]
  dsimp only
  split
  · simp_all
  · split <;> simp_all

theorem othersCode_eq_zero_iff {u : AddrRange} : s.othersCode p u = 0 ↔ ∀ j, ¬Others s p u j := by
  have none : (allLeases.filter fun id => (s.lease id).live && (s.lease id).holder != p &&
      (s.lease id).range.overlaps u) = [] ↔ ∀ j, ¬Others s p u j := by
    rw [List.eq_nil_iff_forall_not_mem]
    exact forall_congr' fun j => not_congr (mem_others s p)
  rw [← none]
  unfold State.othersCode
  dsimp only
  generalize allLeases.filter _ = others
  cases others with
  | nil => simp
  | cons j others => split <;> simp

end Parts

/-- R72: the region that a decode names. -/
theorem lookupSlot_some {s : State} {p : PortId} {x : Word} {r : RegionId}
    (h : s.mu.decode p .read x = .region r ∨ s.mu.decode p .read x = .inactive r) : s.lookupSlot p x = some r := by
  unfold State.lookupSlot
  rcases h with h | h <;> rw [h]

theorem lookupSlot_none {s : State} {p : PortId} {x : Word}
    (h : s.mu.decode p .read x = .window ∨ s.mu.decode p .read x = .noRegion) : s.lookupSlot p x = none := by
  unfold State.lookupSlot
  rcases h with h | h <;> rw [h]

/-- R72: the own lease, in the rule's words. -/
theorem own_iff {l : Lease} {p : PortId} {x : Word} :
    (l.live = true ∧ l.holder = p ∧ l.range.contains x = true) ↔
      ((l.state = .held ∨ l.state = .draining) ∧ l.holder = p ∧ Spans l.range.start l.range.exp.toNat x) := by
  rw [live_iff, AddrRange.contains_iff]
  rfl

theorem ownLease_eq_none {s : State} {p : PortId} {x : Word}
    (h : ∀ j : LeaseId, ¬((s.lease j).live = true ∧ (s.lease j).holder = p ∧ (s.lease j).range.contains x = true)) :
    s.ownLease p x = none := by
  unfold State.ownLease
  rw [List.find?_eq_none]
  intro j _ k
  exact h j (by simpa [and_assoc] using k)

/-- Settles O24: both leave the state as it was, and their words are laid out as the tables say. -/
theorem queryAndLookupOnlyAnswer : Obligations.QueryAndLookupOnlyAnswer := by
  intro s p be data id l x unit own
  refine ⟨fun h => ⟨queryWord l, ?_, queryWord_fields l⟩, fun h => ⟨s.lookupWord p x, ?_, fun r named => ?_,
    fun unnamed => ?_, fun j mine lowest => ?_, fun none => ?_, ?_, ?_, (field_lookupWord_others s p x).2⟩⟩
  · have ⟨_, _, hl, hc⟩ := h
    exact exec_of_reply (code := 7) h (by decide) data ((leCommand_query hl hc).trans (leQuery_eq _ s))
      ResultCode.noConfusion
  · have ⟨_, _, hl, hc⟩ := h
    exact exec_of_reply (code := 8) h (by decide) data (leCommand_lookup hl hc) ResultCode.noConfusion
  · have fields := regionPart_some s p r
    rw [← lookupSlot_some named] at fields
    simpa (disch := decide) only [field_lookupWord_region] using fields
  · rw [field_lookupWord_region s p x (by decide), lookupSlot_none unnamed]
    exact field_zero 0 12
  · have fields := ownPart_some s j
    rw [← ownLease_iff.mpr ⟨own_iff.mpr mine, fun k hk other => lowest k hk (own_iff.mp other)⟩] at fields
    simpa (disch := decide) only [field_lookupWord_own] using fields
  · rw [field_lookupWord_own s p x (by decide) (by decide), ownLease_eq_none fun j mine => none j (own_iff.mp mine)]
    exact field_zero 12 12
  all_goals
    obtain ⟨others, _⟩ := field_lookupWord_others s p x
    rw [others]
  · simp only [othersCode_eq_two_iff, Others, and_assoc]
    rfl
  · rw [othersCode_eq_zero_iff]
    exact forall_congr' fun j =>
      ⟨fun k live holder => Bool.eq_false_of_not_eq_true fun lies => k ⟨live, holder, lies⟩,
        fun k ⟨live, holder, lies⟩ => Bool.false_ne_true ((k live holder).symm.trans lies)⟩

end Sys2Proof.Machine
end

section
/-! LEASE_REVOKE (R78), with the rules for a change of leases that a grant scan follows: what the scan grants is granted from
the state before the change. -/

namespace Sys2Proof.Machine

open Sys2Proof.Safety Sys2Proof.Claims

/-! ## A change of leases up to its scan -/

/-- R94: leases changed from `s` to `u`, the grant scan still to come: the Wait List stands, a FREE slot stays as it is and
every slot keeps its generation. -/
structure BeforeScan (s u : State) : Prop where
  work : LeaseWork s u
  waiters : u.le.waiters = s.le.waiters
  free : ∀ id : LeaseId, (s.lease id).state = .free → u.lease id = s.lease id
  generation : ∀ id : LeaseId, (u.lease id).generation = (s.lease id).generation

namespace BeforeScan

variable {s u t : State}

theorem grantedTo (h : BeforeScan s u) {w : Waiter} {id : LeaseId} (hg : GrantedTo u t w id) : GrantedTo s t w id := by
  obtain ⟨lease, notice⟩ := hg
  have generation := h.generation id
  have record : GrantRecord u w id = GrantRecord s w id := by
    unfold GrantRecord
    rw [generation, h.work.region]
  exact ⟨lease.trans record, generation ▸ notice⟩

variable (h : BeforeScan s u) (walked : Walked u.le.waiters u t)
include h walked

/-- A slot that is FREE for the scan stays so, or is granted. -/
theorem granted {id : LeaseId} (hf : (u.lease id).state = .free) : t.lease id = u.lease id ∨ Granted s t id := by
  refine (walked.grants id hf).imp_right fun ⟨w, hw, left, hg⟩ => ⟨w, ?_, left, h.grantedTo hg⟩
  rwa [h.waiters] at hw

theorem scanned (hs : t.le.waiters.Sublist u.le.waiters) : Scanned s t (fun _ => False) := by
  refine ⟨h.waiters ▸ hs, fun id hf => ?_, fun w hw left _ => ?_⟩
  · have same := h.free id hf
    rw [← same]
    exact h.granted walked (by rw [same, hf])
  · obtain ⟨id, _, hg⟩ := walked.leavers w (by rwa [h.waiters]) left
    exact ⟨id, h.grantedTo hg⟩

theorem boardKept {p : PortId} (same : (u.port p).board = (s.port p).board) : BoardKept s t p := by
  intro tag
  rw [← same, ← h.waiters]
  exact walked.board p tag

/-- A port whose board and tombstone count the change leaves. -/
theorem portKept {p : PortId} (work : LeaseWork u t) (board : (u.port p).board = (s.port p).board)
    (tombstones : (u.port p).tombstones = (s.port p).tombstones) : PortKept s t p := by
  refine ⟨?_, h.boardKept walked board⟩
  have port := (h.work.trans work).port p
  rwa [walked.tombstones, tombstones] at port

end BeforeScan

/-- R94, R178: a change of leases, the scan it calls for, and the completion of the command. -/
theorem quiet_finish_settle {s u : State} (work : LeaseWork s u) (hk : KeysUnique u.le.waiters)
    (same : u.mgp.flags = s.mgp.flags) (code : BitVec 4) (result : HostResult) :
    Quiet (s.finish code result) ((s.settle u).finish code result) [.slotsLow] := by
  refine ⟨congrArg (State.finish code result) (settle_leaseWork s work).eq, fun e he => ?_⟩
  have kept : (s.settle u).flagged e = s.flagged e :=
    ((settle_walked s hk).flags e (by simpa using he)).trans (congrArg (fun f : BitVec 10 => f.getLsbD e.bit) same)
  rw [flagged_finish, flagged_finish, kept]

/-! ## One lease revoked (R73) -/

theorem Revoked_generation (x : RevokeReason) (l : Lease) : (Revoked x l).generation = l.generation := by
  unfold Revoked
  split <;> rfl

theorem Revoked_ne_free (x : RevokeReason) (l : Lease) : (Revoked x l).state ≠ .free := by
  unfold Revoked
  split <;> exact LeaseState.noConfusion

section Revoke

variable {x : RevokeReason} {id : LeaseId} {s : State} (held : (s.lease id).state = .held) (hx : x ≠ .silent)
include held hx

theorem revoke_of_held : s.revoke x id = s.putLease id (Revoked x (s.lease id)) := by
  unfold State.revoke Revoked
  dsimp only
  rw [if_neg (not_not_intro held), if_neg hx]
  split <;> simp

theorem revoke_beforeScan : BeforeScan s (s.revoke x id) where
  work := revoke_leaseWork x id s
  waiters := waiters_revoke x id s
  free j hf := lease_revoke_ne x s (by rintro rfl; exact nomatch held.symm.trans hf)
  generation j := by
    rw [revoke_of_held held hx, lease_putLease]
    split
    · next e => rw [Revoked_generation, e]
    · rfl

/-- R149: a revocation leaves every port, but for the tombstone that it makes. -/
theorem port_revoke (p : PortId) :
    (s.revoke x id).port p = { s.port p with
      tombstones := (s.port p).tombstones + if (s.lease id).inFlight = false ∧ (s.lease id).holder = p then 1 else 0 } := by
  rw [revoke_of_held held hx, port_putLease]
  unfold Revoked
  cases (s.lease id).inFlight <;> simp [held]

/-- R94: the revocation of a lease with no access in flight calls for a scan. -/
theorem scanDue_revoke (hf : (s.lease id).inFlight = false) : scanDue s (s.revoke x id) = true := by
  refine scanDue_of_ended (id := id) (by simp [Lease.live, held]) ?_
  rw [lease_revoke_self held hx, hf]
  rfl

/-- R94: a lease that drains calls for none. -/
theorem settle_revoke_inFlight (hf : (s.lease id).inFlight = true) : s.settle (s.revoke x id) = s.revoke x id := by
  refine settle_of_not_due (scanDue_eq_false (congrArg List.length (waiters_revoke x id s)) fun j => ?_)
  by_cases e : id = j
  · subst e
    rw [lease_revoke_self held hx, hf]
    exact slotTriggers_of_live rfl rfl
  · rw [lease_revoke_ne x s e]
    exact slotTriggers_self _

/-- R73: the lease revoked keeps its record through the scan. -/
theorem lease_settle_revoke_self : (s.settle (s.revoke x id)).lease id = Revoked x (s.lease id) := by
  have put : (s.revoke x id).lease id = Revoked x (s.lease id) := by
    rw [revoke_of_held held hx, lease_putLease, if_pos rfl]
  rw [lease_settle_of_ne_free s _ id (by rw [put]; exact Revoked_ne_free _ _), put]

variable (hk : KeysUnique s.le.waiters)
include hk

theorem settle_revoke_walked :
    Walked (s.revoke x id).le.waiters (s.revoke x id) (s.settle (s.revoke x id)) :=
  settle_walked s ((revoke_beforeScan held hx).waiters ▸ hk)

/-- R149: the holder of a lease revoked, after the scan. -/
theorem port_settle_revoke :
    (s.settle (s.revoke x id)).port (s.lease id).holder = { s.port (s.lease id).holder with
      board := ((s.settle (s.revoke x id)).port (s.lease id).holder).board
      tombstones := (s.port (s.lease id).holder).tombstones + if (s.lease id).inFlight then 0 else 1 } := by
  refine ((settle_leaseWork s (revoke_leaseWork x id s)).port _).trans ?_
  rw [(settle_revoke_walked held hx hk).tombstones, port_revoke held hx]
  cases (s.lease id).inFlight <;> simp

/-- R149: a port that counts no tombstone of the revocation. -/
theorem portKept_settle_revoke {p : PortId} (hp : p ≠ (s.lease id).holder ∨ (s.lease id).inFlight = true) :
    PortKept s (s.settle (s.revoke x id)) p := by
  have port := port_revoke held hx p
  have notMade : ¬((s.lease id).inFlight = false ∧ (s.lease id).holder = p) := by
    rintro ⟨grounded, own⟩
    rcases hp with other | flying
    · exact other own.symm
    · exact nomatch flying.symm.trans grounded
  rw [if_neg notMade] at port
  exact (revoke_beforeScan held hx).portKept (settle_revoke_walked held hx hk) (settle_leaseWork s (.refl _))
    (by rw [port]) (by rw [port]; rfl)

end Revoke

/-- R74: the other slots in use keep theirs. -/
theorem lease_settle_revoke_ne {x : RevokeReason} {id j : LeaseId} {s : State} (hj : j ≠ id)
    (used : (s.lease j).state ≠ .free) : (s.settle (s.revoke x id)).lease j = s.lease j := by
  have same := lease_revoke_ne x s hj.symm
  rw [lease_settle_of_ne_free s _ j (by rwa [same]), same]

theorem mgp_revoke (x : RevokeReason) (id : LeaseId) (s : State) : (s.revoke x id).mgp = s.mgp := by
  rcases revoke_eq x id s with h | ⟨l, h⟩
  · rw [h]
  · rw [h, mgp_putLease]

/-- Settles O38: the argument, the lease that it names, and then the revocation with its scan. -/
theorem leaseRevokeRevokesOneLease : Obligations.LeaseRevokeRevokesOneLease := by
  intro s hu
  have taken : exec .leaseRevoke s = .next ((s.takeCode 7#4).hostLeaseRevoke s.mgp.hostArg) :=
    congrArg _ (hostCommand_of_idle hu 7#4)
  rw [taken]
  unfold State.hostLeaseRevoke
  refine ⟨fun large => ?_, fun id hid => ?_⟩
  · rw [argFin_of_le large]
    rfl
  rw [argFin_of_eq hid]
  dsimp only
  refine ⟨fun other => congrArg Host.Outcome.next (if_pos ?_), fun ⟨generation, held⟩ unique => ?_⟩
  · exact or_iff_not_imp_left.mpr fun same held => other ⟨not_not.mp same, held⟩
  have hx : RevokeReason.host ≠ .silent := RevokeReason.noConfusion
  have before := revoke_beforeScan (s := s.takeCode 7#4) (x := .host) held hx
  have keys : KeysUnique (s.takeCode 7#4).le.waiters := unique.1
  have walked := settle_revoke_walked (s := s.takeCode 7#4) held hx keys
  have scanned := before.scanned walked (waiters_settle_sublist _ _)
  have board := before.boardKept walked (p := (s.lease id).holder) (by rw [port_revoke (s := s.takeCode 7#4) held hx])
  refine ⟨((s.takeCode 7#4).settle ((s.takeCode 7#4).revoke .host id)).finish 7#4 .ok,
    congrArg Host.Outcome.next (if_neg ?_), lease_settle_revoke_self (s := s.takeCode 7#4) held hx,
    fun j => lease_settle_revoke_ne (s := s.takeCode 7#4),
    scanned, fun hf => ?_,
    fun p => portKept_settle_revoke (s := s.takeCode 7#4) held hx keys,
    port_settle_revoke (s := s.takeCode 7#4) held hx keys, board, fun hf => ?_, ?_⟩
  · rintro (stale | other)
    · exact stale generation
    · exact other held
  · have done := grantScan_done ((s.takeCode 7#4).revoke .host id)
    rw [← settle_of_due (scanDue_revoke (s := s.takeCode 7#4) held hx hf)] at done
    exact scanDone_of_eq (finish_le _ _ _) (fun _ _ => rfl) done
  · exact (congrArg (·.le.waiters) (settle_revoke_inFlight (s := s.takeCode 7#4) held hx hf)).trans before.waiters
  · exact quiet_finish_settle before.work (before.waiters ▸ keys) (congrArg (·.flags) (mgp_revoke _ _ _)) 7#4 .ok

end Sys2Proof.Machine
end

section
/-! PURGE (R79): the tombstones freed slot by slot, the board emptied, and the scan that a freed slot calls for. -/

namespace Sys2Proof.Machine

open Sys2Proof.Safety Sys2Proof.Claims

/-! ## The tombstones freed -/

theorem tombstoneOf_iff {s : State} {p : PortId} {id : LeaseId} :
    s.tombstoneOf p id = true ↔ (s.lease id).state = .revoked ∧ (s.lease id).holder = p := by
  simp [State.tombstoneOf]

/-- R79: the freeing of one slot, where it is a tombstone of requester `p`. -/
def State.freeTombstone (p : PortId) (s : State) (id : LeaseId) : State :=
  if s.tombstoneOf p id then s.freeLease id else s

theorem freeTombstones_eq (p : PortId) (s : State) : s.freeTombstones p = allLeases.foldl (State.freeTombstone p) s := rfl

theorem lease_freeTombstone (p : PortId) (id : LeaseId) (s : State) (j : LeaseId) :
    (s.freeTombstone p id).lease j =
      if id = j ∧ s.tombstoneOf p j = true then Lease.freeWith (s.lease j).generation else s.lease j := by
  unfold State.freeTombstone
  by_cases e : id = j
  · subst e
    by_cases h : s.tombstoneOf p id = true <;> simp [h]
  · by_cases h : s.tombstoneOf p id = true <;> simp [h, e]

theorem tombstoneOf_freeTombstone {p : PortId} {id j : LeaseId} (h : id ≠ j) (s : State) :
    (s.freeTombstone p id).tombstoneOf p j = s.tombstoneOf p j := by
  unfold State.tombstoneOf
  rw [lease_freeTombstone, if_neg fun k => h k.1]

theorem lease_foldl_freeTombstone (p : PortId) (j : LeaseId) {l : List LeaseId} (hn : l.Nodup) (s : State) :
    (l.foldl (State.freeTombstone p) s).lease j =
      if j ∈ l ∧ s.tombstoneOf p j = true then Lease.freeWith (s.lease j).generation else s.lease j := by
  induction l generalizing s with
  | nil => simp
  | cons id l ih =>
    obtain ⟨hid, hn⟩ := List.nodup_cons.mp hn
    rw [List.foldl_cons, ih hn, lease_freeTombstone]
    by_cases e : id = j
    · subst e
      simp [hid]
    · rw [tombstoneOf_freeTombstone e]
      simp [e, Ne.symm e]

section Freed

variable (p : PortId) (s : State)

theorem lease_freeTombstones (id : LeaseId) :
    (s.freeTombstones p).lease id =
      if s.tombstoneOf p id then Lease.freeWith (s.lease id).generation else s.lease id := by
  rw [freeTombstones_eq, lease_foldl_freeTombstone (l := allLeases) p id (List.nodup_finRange 64)]
  simp only [mem_allLeases, true_and]

/-- What every freeing of a tombstone of `p` leaves, all of them together leave. -/
theorem freeTombstones_keeps {α : Type} (part : State → α)
    (h : ∀ id u, u.tombstoneOf p id = true → part (u.freeLease id) = part u) : part (s.freeTombstones p) = part s := by
  have one : ∀ id u, part (u.freeTombstone p id) = part u := fun id u => by
    unfold State.freeTombstone
    split
    · next tomb => exact h id u tomb
    · rfl
  rw [freeTombstones_eq]
  generalize allLeases = l
  induction l generalizing s with
  | nil => rfl
  | cons id l ih => exact (ih _).trans (one id s)

theorem waiters_freeTombstones : (s.freeTombstones p).le.waiters = s.le.waiters :=
  freeTombstones_keeps p s (·.le.waiters) fun id u _ => waiters_putLease id _ u

theorem mgp_freeTombstones : (s.freeTombstones p).mgp = s.mgp :=
  freeTombstones_keeps p s (·.mgp) fun id u _ => mgp_putLease id _ u

variable {p} in
/-- R149: a tombstone counts for its holder alone. -/
theorem port_freeTombstones_ne {q : PortId} (h : q ≠ p) : (s.freeTombstones p).port q = s.port q := by
  refine freeTombstones_keeps p s (·.port q) fun id u tomb => ?_
  obtain ⟨_, holder⟩ := tombstoneOf_iff.mp tomb
  unfold State.freeLease
  simp [port_putLease, holder, h.symm, Lease.freeWith]

theorem freeTombstones_of_none (h : ∀ id : LeaseId, ¬((s.lease id).state = .revoked ∧ (s.lease id).holder = p)) :
    s.freeTombstones p = s := by
  rw [freeTombstones_eq]
  generalize allLeases = l
  induction l with
  | nil => rfl
  | cons id l ih =>
    rw [List.foldl_cons, State.freeTombstone, if_neg fun k => h id (tombstoneOf_iff.mp k)]
    exact ih

variable {s} in
/-- R149: where the counts agree, the requester is left with none. -/
theorem tombstones_freeTombstones (h : CountsAgree s) : ((s.freeTombstones p).port p).tombstones = 0 := by
  have agree : CountsAgree (s.freeTombstones p) := (freeTombstones_tableKept p s).counts h
  rw [agree.2 p]
  refine List.countP_eq_zero.mpr fun id _ tomb => ?_
  obtain ⟨revoked, holder⟩ := tombstoneOf_iff.mp tomb
  rw [lease_freeTombstones] at revoked holder
  split at revoked
  · exact nomatch revoked
  · next other =>
    rw [if_neg other] at holder
    exact other (tombstoneOf_iff.mpr ⟨revoked, holder⟩)

end Freed

/-! ## PURGE up to its scan -/

/-- R79: the tombstones freed and the board emptied, the scan still to come. -/
def State.beginPurge (p : PortId) (s : State) : State :=
  (s.freeTombstones p).updPort p fun q => { q with board := #v[none, none, none, none] }

section Purge

variable (p : PortId) (s : State)

theorem le_beginPurge : (s.beginPurge p).le = (s.freeTombstones p).le := by
  unfold State.beginPurge
  rw [updPort_le]

theorem mgp_beginPurge : (s.beginPurge p).mgp = s.mgp := by
  unfold State.beginPurge
  rw [updPort_mgp, mgp_freeTombstones]

theorem lease_beginPurge (id : LeaseId) :
    (s.beginPurge p).lease id =
      if s.tombstoneOf p id then Lease.freeWith (s.lease id).generation else s.lease id := by
  rw [← lease_freeTombstones]
  unfold State.lease
  rw [le_beginPurge]

theorem port_beginPurge_self :
    (s.beginPurge p).port p = { (s.freeTombstones p).port p with board := #v[none, none, none, none] } :=
  port_updPort_self _ p _

variable {s} in
theorem tombstones_beginPurge (h : CountsAgree s) : ((s.beginPurge p).port p).tombstones = 0 := by
  rw [port_beginPurge_self]
  dsimp only
  rw [tombstones_freeTombstones p h]

theorem port_beginPurge_ne {q : PortId} (h : q ≠ p) : (s.beginPurge p).port q = s.port q :=
  (port_updPort_ne _ _ h.symm).trans (port_freeTombstones_ne s h)

theorem beginPurge_beforeScan : BeforeScan s (s.beginPurge p) where
  work := (freeTombstones_leaseWork p s).trans (updPort_leaseWork p _ _ fun _ => rfl)
  waiters := (congrArg (·.waiters) (le_beginPurge p s)).trans (waiters_freeTombstones p s)
  free id hf := by
    rw [lease_beginPurge, if_neg fun k => nomatch hf.symm.trans (tombstoneOf_iff.mp k).1]
  generation id := by
    rw [lease_beginPurge]
    split <;> rfl

/-- R94: a tombstone freed calls for a scan. -/
theorem scanDue_beginPurge {id : LeaseId} (h : (s.lease id).state = .revoked ∧ (s.lease id).holder = p) :
    scanDue s (s.beginPurge p) = true := by
  unfold scanDue
  rw [Bool.or_eq_true]
  refine .inr (any_allLeases.mpr ⟨id, ?_⟩)
  rw [lease_beginPurge, if_pos (tombstoneOf_iff.mpr h)]
  simp [slotTriggers, h, Lease.freeWith]

end Purge

/-- R147: a board holds a notice. -/
theorem notices_pos_iff {q : Port} : 0 < q.notices ↔ ∃ tag : Tag, q.board[tag] ≠ none := by
  unfold Port.notices
  rw [List.countP_pos_iff]
  constructor
  · rintro ⟨n, hn, some⟩
    obtain ⟨i, hi, rfl⟩ := Vector.mem_iff_getElem.mp (Vector.mem_toList_iff.mp hn)
    exact ⟨⟨i, hi⟩, Option.isSome_iff_ne_none.mp some⟩
  · rintro ⟨tag, some⟩
    exact ⟨q.board[tag], Vector.mem_toList_iff.mpr (Vector.getElem_mem _), Option.isSome_iff_ne_none.mpr some⟩

/-- R79: a tombstone or a notice is found. -/
theorem purge_found_iff {s : State} {p : PortId} :
    ((allLeases.any fun id => s.tombstoneOf p id) || decide (0 < (s.port p).notices)) = true ↔
      (∃ id : LeaseId, (s.lease id).state = .revoked ∧ (s.lease id).holder = p) ∨
        ∃ tag : Tag, (s.port p).board[tag] ≠ none := by
  rw [Bool.or_eq_true, any_allLeases, decide_eq_true_eq, notices_pos_iff]
  simp only [tombstoneOf_iff]

theorem exec_purge {s : State} {p : PortId} (hu : s.mgp.unit = .idle)
    (hp : (s.mgp.hostArg.extractLsb' 0 8).toNat = p.val) :
    exec .purge s = .next (((s.takeCode 11#4).settle ((s.takeCode 11#4).beginPurge p)).finish 11#4
      (if (allLeases.any fun id => s.tombstoneOf p id) || decide (0 < (s.port p).notices) then .ok else .notHeld)) := by
  have taken : exec .purge s = .next ((s.takeCode 11#4).hostPurge s.mgp.hostArg) :=
    congrArg _ (hostCommand_of_idle hu 11#4)
  rw [taken]
  unfold State.hostPurge
  rw [argFin_of_eq hp]
  rfl

/-- Settles O41: with no tombstone the board alone changes; with one, a scan follows. -/
theorem purgeReclaimsTombstones : Obligations.PurgeReclaimsTombstones := by
  intro s p hu hp tomb found
  rw [exec_purge hu hp]
  refine ⟨fun none => congrArg Host.Outcome.next ?_, fun ⟨id, hid⟩ agree unique => ?_⟩
  · have begun : (s.takeCode 11#4).beginPurge p =
        (s.takeCode 11#4).updPort p fun q => { q with board := #v[Option.none, Option.none, Option.none, Option.none] } := by
      unfold State.beginPurge
      rw [freeTombstones_of_none p (s.takeCode 11#4) none]
    have still : (s.takeCode 11#4).settle ((s.takeCode 11#4).beginPurge p) = (s.takeCode 11#4).beginPurge p := by
      rw [begun]
      exact settle_of_not_due (scanDue_eq_false rfl fun _ => slotTriggers_self _)
    rw [still, begun]
    have result := if_congr (purge_found_iff (s := s) (p := p)) (Eq.refl HostResult.ok) (Eq.refl HostResult.notHeld)
    rw [result]
    rfl
  rw [if_pos (purge_found_iff.mpr (.inl ⟨id, hid⟩))]
  have before := beginPurge_beforeScan p (s.takeCode 11#4)
  have keys : KeysUnique ((s.takeCode 11#4).beginPurge p).le.waiters := by
    rw [before.waiters]
    exact unique.1
  have walked := settle_walked (s.takeCode 11#4) keys
  have work := settle_leaseWork (s.takeCode 11#4) (LeaseWork.refl ((s.takeCode 11#4).beginPurge p))
  have scanned := before.scanned walked (waiters_settle_sublist _ _)
  refine ⟨_, rfl, fun j hj => ?tomb, fun j hj used => ?other, scanned, ?done, ?port, fun tag => ?board, fun q hq => ?ports,
    quiet_finish_settle before.work keys (congrArg (·.flags) (mgp_beginPurge p _)) 11#4 .ok⟩
  case tomb =>
    have freed := (lease_beginPurge p (s.takeCode 11#4) j).trans (if_pos (tombstoneOf_iff.mpr hj))
    have after := before.granted walked (id := j) (by rw [freed]; rfl)
    rwa [freed] at after
  case other =>
    have same := (lease_beginPurge p (s.takeCode 11#4) j).trans (if_neg fun k => hj (tombstoneOf_iff.mp k))
    exact (lease_settle_of_ne_free (s.takeCode 11#4) _ j (by rw [same]; exact used)).trans same
  case done =>
    have done := grantScan_done ((s.takeCode 11#4).beginPurge p)
    rw [← settle_of_due (scanDue_beginPurge p (s.takeCode 11#4) hid)] at done
    exact scanDone_of_eq (finish_le _ _ _) (fun _ _ => rfl) done
  case port =>
    have port := (before.work.trans work).port p
    rw [walked.tombstones, tombstones_beginPurge p (s := s.takeCode 11#4) agree] at port
    rw [finish_port]
    exact port
  case board =>
    have emptied : ((s.takeCode 11#4).beginPurge p).port p |>.board[tag] = none := by
      rw [port_beginPurge_self]
      fin_cases tag <;> rfl
    rcases walked.board p tag with same | ⟨w, hw, rfl, rfl, left⟩
    · exact .inl (same.trans emptied)
    · obtain ⟨j, _, hg⟩ := walked.leavers w hw left
      obtain ⟨lease, notice⟩ := before.grantedTo hg
      rw [before.waiters] at hw
      refine .inr ⟨w, j, hw, rfl, rfl, left, ?_⟩
      have generation := congrArg (·.generation) lease
      exact notice.trans (congrArg (fun g => some (ClaimNotice.granted j g)) generation.symm)
  case ports =>
    have port := port_beginPurge_ne p (s.takeCode 11#4) hq
    exact before.portKept walked work (by rw [port]) (by rw [port])

end Sys2Proof.Machine
end

section
/-! RENEW (R66, R110 to R112, R160, R161): the checks in order; then the early renewal that revokes its lease, with the scan that
follows it, the fault it counts, and the barring where the threshold is reached. -/

namespace Sys2Proof.Machine

open Sys2Proof.Safety Sys2Proof.Claims

/-! ## The checks (R66) -/

theorem isEarly_iff {l : Lease} {d : Region} : isEarly l d = true ↔ l.term * d.share < l.remaining * 4 := decide_eq_true_iff

theorem denied_iff {s : State} {l : Lease} {d : Region} :
    (d.yield && s.deniedByWaiter l) = true ↔ d.yield = true ∧ ∃ w ∈ s.le.waiters,
      conflict w.range w.mode l.range l.mode = true ∧ l.priority < w.priority := by
  simp [State.deniedByWaiter]

/-- R111: the record of a lease renewed early once more. -/
def Lease.renewedEarly (l : Lease) : Lease := { l with faults := l.faults + 1 }

/-- R111: the early renewal at the limit revokes the lease, the scan still to come. -/
def State.revokeEarly (id : LeaseId) (s : State) : State :=
  (s.putLease id (s.lease id).renewedEarly).revoke .earlyLimit id

section Checks

variable {s : State} {p : PortId} {w0 : Word}

theorem leRenew_of_some {c : ResultCode} (h : s.identity p (reqLease w0) (reqGeneration w0) = some c) :
    s.leRenew p w0 = (s, Reply.ofLease c (reqLease w0) (reqGeneration w0)) := by
  unfold State.leRenew
  dsimp only
  rw [h]

variable (h : s.identity p (reqLease w0) (reqGeneration w0) = none)
include h

theorem leRenew_of_none :
    s.leRenew p w0 =
      let id := reqLease w0
      let reply := fun c => Reply.ofLease c id (reqGeneration w0)
      let l := s.lease id
      let d := s.region l.region
      if isEarly l d = true then
        if d.earlyLimit ≤ l.faults + 1 then (s.settle (s.revokeEarly id), reply .earlyRevoked)
        else (s.putLease id l.renewedEarly, reply .early)
      else if (d.yield && s.deniedByWaiter l) = true then (s, reply .deniedWaiter)
      else
        ((s.putLease id { l with remaining := l.term }).updRequester p fun r => { r with faults := r.faults - 1 },
          reply .ok) := by
  unfold State.leRenew
  dsimp only
  rw [h]
  rfl

end Checks

/-! ## The revocation of an early renewal, up to its scan and with it -/

section RevokeEarly

variable {s : State} {id : LeaseId}

theorem lease_setEarly_self : (SetLease id (s.lease id).renewedEarly s).lease id = (s.lease id).renewedEarly := by
  rw [lease_setLease, if_pos rfl]

variable (held : (s.lease id).state = .held)
include held

theorem held_setEarly : ((SetLease id (s.lease id).renewedEarly s).lease id).state = .held := by
  rw [lease_setEarly_self]
  exact held

theorem revokeEarly_eq : s.revokeEarly id = (SetLease id (s.lease id).renewedEarly s).revoke .earlyLimit id := by
  unfold State.revokeEarly
  rw [putLease_of_held (l := (s.lease id).renewedEarly) held held]

theorem lease_revokeEarly (j : LeaseId) :
    (s.revokeEarly id).lease j = if id = j then Revoked .earlyLimit (s.lease id).renewedEarly else s.lease j := by
  rw [revokeEarly_eq held]
  by_cases e : id = j
  · subst e
    rw [revoke_of_held (held_setEarly held) RevokeReason.noConfusion, lease_putLease, if_pos rfl, lease_setEarly_self,
      if_pos rfl]
  · rw [lease_revoke_ne _ _ e, lease_setLease, if_neg e, if_neg e]

theorem revokeEarly_beforeScan : BeforeScan s (s.revokeEarly id) where
  work := (putLease_leaseWork id _ s).trans (revoke_leaseWork _ id _)
  waiters := by
    unfold State.revokeEarly
    rw [waiters_revoke, waiters_putLease]
  free j hf := by
    rw [lease_revokeEarly held, if_neg]
    rintro rfl
    exact nomatch held.symm.trans hf
  generation j := by
    rw [lease_revokeEarly held]
    split
    · next e =>
      subst e
      exact Revoked_generation _ _
    · rfl

/-- R149: the revocation leaves every port, but for the tombstone that it makes. -/
theorem port_revokeEarly (q : PortId) :
    (s.revokeEarly id).port q = { s.port q with
      tombstones := (s.port q).tombstones + if (s.lease id).inFlight = false ∧ (s.lease id).holder = q then 1 else 0 } := by
  rw [revokeEarly_eq held, port_revoke (held_setEarly held) RevokeReason.noConfusion, lease_setEarly_self]
  rfl

theorem mgp_revokeEarly : (s.revokeEarly id).mgp = s.mgp := by
  rw [revokeEarly_eq held, mgp_revoke]
  rfl

/-- R94: the lease leaves the live states where no access is in flight. -/
theorem scanDue_revokeEarly (hf : (s.lease id).inFlight = false) : scanDue s (s.revokeEarly id) = true := by
  refine scanDue_of_ended (id := id) (by simp [Lease.live, held]) ?_
  rw [lease_revokeEarly held, if_pos rfl, Revoked, Lease.renewedEarly, hf]
  rfl

/-- R73: a slot that is in use after the revocation keeps its record through the scan. -/
theorem lease_settle_revokeEarly {j : LeaseId} (used : (s.lease j).state ≠ .free) :
    (s.settle (s.revokeEarly id)).lease j =
      if id = j then Revoked .earlyLimit (s.lease id).renewedEarly else s.lease j := by
  rw [lease_settle_of_ne_free, lease_revokeEarly held]
  rw [lease_revokeEarly held]
  split
  · exact Revoked_ne_free _ _
  · exact used

/-- R97: a slot that is FREE after the scan was so before the event. -/
theorem free_of_settle_revokeEarly (hk : KeysUnique s.le.waiters) {j : LeaseId}
    (hf : ((s.settle (s.revokeEarly id)).lease j).state = .free) :
    (s.settle (s.revokeEarly id)).lease j = s.lease j := by
  have before := revokeEarly_beforeScan held
  have walked := settle_walked s (s := s.revokeEarly id) (before.waiters ▸ hk)
  by_cases used : (s.lease j).state = .free
  · have same := before.free j used
    rcases before.granted walked (id := j) (by rw [same, used]) with after | ⟨w, _, _, granted, _⟩
    · exact after.trans same
    · rw [granted] at hf
      cases hf
  · rw [lease_settle_revokeEarly held used] at hf ⊢
    split at hf
    · exact absurd hf (Revoked_ne_free _ _)
    · next e => rw [if_neg e]

end RevokeEarly

/-! ## What the scan says, with a port record written after it -/

section SameBoards

variable {s t u : State} (hl : t.le = u.le) (hb : ∀ q : PortId, (t.port q).board = (u.port q).board)
include hl hb

theorem grantedTo_of_boards {w : Waiter} {id : LeaseId} (h : GrantedTo s u w id) : GrantedTo s t w id := by
  obtain ⟨lease, notice⟩ := h
  refine ⟨?_, by rw [hb]; exact notice⟩
  unfold State.lease
  rw [hl]
  exact lease

theorem scanned_of_boards {gone : Waiter → Prop} (h : Scanned s u gone) : Scanned s t gone := by
  obtain ⟨sublist, free, leavers⟩ := h
  refine ⟨hl ▸ sublist, fun id hf => ?_, fun w hw left hg => ?_⟩
  · refine (free id hf).imp (fun same => ?_) fun ⟨w, hw, left, granted⟩ =>
      ⟨w, hw, left_of_eq hl left, grantedTo_of_boards hl hb granted⟩
    unfold State.lease
    rw [hl]
    exact same
  · obtain ⟨id, granted⟩ := leavers w hw (left_of_eq hl.symm left) hg
    exact ⟨id, grantedTo_of_boards hl hb granted⟩

theorem boardKept_of_boards {q : PortId} (h : BoardKept s u q) : BoardKept s t q := by
  intro tag
  rw [hb]
  exact (h tag).imp_right fun ⟨w, hw, hr, ht, left⟩ => ⟨w, hw, hr, ht, left_of_eq hl left⟩

end SameBoards

/-- Nothing but the Lease Table with its count, the Wait List, the ports and the flags differs between `s` and `t`. -/
def LeasesPortsFlags (s t : State) : Prop :=
  ∃ leases freeSlots waiters ports flags, t = { s with
    le := { s.le with leases := leases, freeSlots := freeSlots, waiters := waiters }
    ptc := { s.ptc with ports := ports }
    mgp := { s.mgp with flags := flags } }

theorem LeaseWork.leasesPortsFlags {s t : State} (h : LeaseWork s t) : LeasesPortsFlags s t := ⟨_, _, _, _, _, h.eq⟩

theorem LeasesPortsFlags.trans {s t u : State} (h : LeasesPortsFlags s t) (k : LeasesPortsFlags t u) :
    LeasesPortsFlags s u := by
  obtain ⟨_, _, _, _, _, rfl⟩ := h
  obtain ⟨_, _, _, _, _, rfl⟩ := k
  exact ⟨_, _, _, _, _, rfl⟩

theorem PortsAndFlags.leasesPortsFlags {s t : State} (h : PortsAndFlags s t) : LeasesPortsFlags s t := by
  obtain ⟨_, _, rfl⟩ := h
  exact ⟨_, _, _, _, _, rfl⟩

theorem LeasesPortsFlags.quiet {s t : State} (h : LeasesPortsFlags s t) {events : List Event}
    (flags : ∀ e : Event, e ∉ events → t.flagged e = s.flagged e) : Quiet s t events := by
  refine ⟨?_, flags⟩
  obtain ⟨_, _, _, _, _, rfl⟩ := h
  rfl

/-- R66, R111: `v` is `s` after the revocation of an early renewal with its scan, the reply `x` placed at port `p` and the
requester record `r` written there. -/
structure EarlyRevocation (s v : State) (p : PortId) (id : LeaseId) (x : Reply) (r : Requester) : Prop where
  used : ∀ j : LeaseId, (s.lease j).state ≠ .free →
    v.lease j = if id = j then Revoked .earlyLimit (s.lease id).renewedEarly else s.lease j
  free : ∀ j : LeaseId, (v.lease j).state = .free → v.lease j = s.lease j
  scanned : Scanned s v (fun _ => False)
  done : (s.lease id).inFlight = false → ScanDone v
  board : ∀ q : PortId, BoardKept s v q
  own : v.port p = { (Answered p x s).port p with
    requester := r, board := (v.port p).board, tombstones := (v.port p).tombstones }
  others : ∀ q : PortId, q ≠ p → PortKept s v q
  region : ∀ k : RegionId, v.region k = s.region k
  rest : LeasesPortsFlags s v

section

variable {s v : State} {p : PortId} {id : LeaseId} {x : Reply} {r : Requester}

theorem earlyRevocation (held : (s.lease id).state = .held) (holder : (s.lease id).holder = p)
    (hk : KeysUnique s.le.waiters) (hv : PortsAndFlags (s.settle (s.revokeEarly id)) v)
    (hport : ∀ q : PortId, v.port q =
      if p = q then { (Answered p x (s.settle (s.revokeEarly id))).port p with requester := r }
      else (s.settle (s.revokeEarly id)).port q) : EarlyRevocation s v p id x r := by
  have before := revokeEarly_beforeScan held
  have walked := settle_walked s (s := s.revokeEarly id) (before.waiters ▸ hk)
  have after := settle_leaseWork s (LeaseWork.refl (s.revokeEarly id))
  have work := before.work.trans after
  have le : v.le = (s.settle (s.revokeEarly id)).le := by
    obtain ⟨_, _, rfl⟩ := hv
    rfl
  have mu : v.mu = s.mu := by
    obtain ⟨_, _, rfl⟩ := hv
    exact work.mu
  have lease : ∀ j, v.lease j = (s.settle (s.revokeEarly id)).lease j := fun j => by
    unfold State.lease
    rw [le]
  have answered : (Answered p x (s.settle (s.revokeEarly id))).port p =
      { (Answered p x s).port p with
        board := ((s.settle (s.revokeEarly id)).port p).board
        tombstones := ((s.settle (s.revokeEarly id)).port p).tombstones } := by
    unfold Answered
    rw [port_updPort_self, port_updPort_self, work.port p]
  have board : ∀ q, (v.port q).board = ((s.settle (s.revokeEarly id)).port q).board := fun q => by
    rw [hport]
    split
    · next e => rw [answered, e]
    · rfl
  have port := port_revokeEarly held
  refine ⟨fun j used => ?used, fun j hf => ?free, ?scanned, fun hf => ?done, fun q => ?board, ?own, fun q hq => ?others,
    fun k => ?region, work.leasesPortsFlags.trans hv.leasesPortsFlags⟩
  case used => rw [lease, lease_settle_revokeEarly held used]
  case free =>
    rw [lease] at hf ⊢
    exact free_of_settle_revokeEarly held hk hf
  case scanned => exact scanned_of_boards le board (before.scanned walked (waiters_settle_sublist _ _))
  case done =>
    have done := grantScan_done (s.revokeEarly id)
    rw [← settle_of_due (scanDue_revokeEarly held hf)] at done
    refine scanDone_of_eq le (fun w _ => ?_) done
    rw [work.region]
    unfold State.region
    rw [mu]
  case board => exact boardKept_of_boards le board (before.boardKept walked (by rw [port]))
  case own =>
    rw [board, hport, if_pos rfl, answered]
  case others =>
    have notMade : ¬((s.lease id).inFlight = false ∧ (s.lease id).holder = q) := fun ⟨_, own⟩ =>
      hq (own.symm.trans holder)
    have kept := before.portKept walked after (p := q) (by rw [port]) (by rw [port, if_neg notMade]; rfl)
    obtain ⟨same, notices⟩ := kept
    refine ⟨?_, boardKept_of_boards le board notices⟩
    rw [board, hport, if_neg hq.symm]
    exact same
  case region =>
    unfold State.region
    rw [mu]

end

end Sys2Proof.Machine
end

section
/-! RENEW at the early limit (R111, R160, R161): the barring after the scan of the revocation, and the two outcomes. -/

namespace Sys2Proof.Machine

open Sys2Proof.Safety Sys2Proof.Claims

/-! ## The barring after the scan of the revocation (R161, R163) -/

namespace EarlyRevocation

variable {s v : State} {p : PortId} {id : LeaseId} {x : Reply} {r : Requester} (h : EarlyRevocation s v p id x r)
include h

/-- A grant by the scan of the barring is one from the state before the event. -/
theorem grantedTo {t : State} {w : Waiter} {j : LeaseId} (hf : (v.lease j).state = .free) (hg : GrantedTo v t w j) :
    GrantedTo s t w j := by
  obtain ⟨lease, notice⟩ := hg
  have same := h.free j hf
  exact ⟨lease.trans (GrantRecord_eq same (by rw [h.region])), by rw [notice, same]⟩

theorem lease_self (held : (s.lease id).state = .held) : v.lease id = Revoked .earlyLimit (s.lease id).renewedEarly :=
  (h.used id (by rw [held]; exact LeaseState.noConfusion)).trans (if_pos rfl)

theorem lease_ne {j : LeaseId} (hj : j ≠ id) (used : (s.lease j).state ≠ .free) : v.lease j = s.lease j :=
  (h.used j used).trans (if_neg hj.symm)

/-- R73, R74: the lease that the renewal revoked is not HELD, and the barring leaves it. -/
theorem barOne_lease_self (held : (s.lease id).state = .held) :
    (v.barRequest (· == p)).lease id = Revoked .earlyLimit (s.lease id).renewedEarly := by
  have revoked := h.lease_self held
  have notHeld : (v.lease id).state ≠ .held := by
    rw [revoked, Revoked_state]
    split <;> exact LeaseState.noConfusion
  rw [lease_barRequest (by rw [revoked]; exact Revoked_ne_free _ _), lease_beginBar, if_neg fun k => notHeld k.1, revoked]

/-- R163: the other slots that were in use. -/
theorem barOne_lease_ne {j : LeaseId} (hj : j ≠ id) (used : (s.lease j).state ≠ .free) :
    (v.barRequest (· == p)).lease j =
      if (s.lease j).state = .held ∧ (s.lease j).holder = p then Revoked .portBarred (s.lease j) else s.lease j := by
  have same := h.lease_ne hj used
  rw [lease_barRequest (by rw [same]; exact used), lease_beginBar, same]
  simp only [beq_iff_eq]

theorem barOne_own : (v.barRequest (· == p)).port p = { (Answered p x s).port p with
    requester := r, board := ((v.barRequest (· == p)).port p).board
    tombstones := ((v.barRequest (· == p)).port p).tombstones } := by
  have own := (barRequest_leaseWork (fun q => q == p) v).port p
  rw [h.own] at own
  exact own

theorem barOne_rest : LeasesPortsFlags s (v.barRequest (· == p)) :=
  h.rest.trans (barRequest_leaseWork (fun q => q == p) v).leasesPortsFlags

omit h in
theorem left_barOne {w : Waiter} (left : Left v w) : Left (v.barRequest (· == p)) w := fun u hu =>
  left u (mem_waiters_barRequest (who := fun q => q == p) hu).1

variable (hk : KeysUnique s.le.waiters)
include hk

theorem keys : KeysUnique v.le.waiters := hk.sublist h.scanned.1

/-- The notice of a waiter that the first scan granted stands through the barring. -/
theorem board_barOne_of_left {w : Waiter} (left : Left v w) :
    ((v.barRequest (· == p)).port w.requester).board[w.tag] = (v.port w.requester).board[w.tag] := by
  rcases barRequest_boardKept (who := fun q => q == p) (h.keys hk) w.requester w.tag with same | ⟨u, hu, hr, ht, _⟩
  · exact same
  · exact absurd ⟨hr, ht⟩ (left u hu)

/-- R97: a grant of the first scan to another requester's waiter stands. -/
theorem granted_stands {w : Waiter} {j : LeaseId} (hg : GrantedTo s v w j) (left : Left v w) (hw : w.requester ≠ p) :
    GrantedTo s (v.barRequest (· == p)) w j := by
  obtain ⟨lease, notice⟩ := hg
  have other : ¬((v.lease j).state = .held ∧ ((v.lease j).holder == p) = true) := fun ⟨_, own⟩ => by
    rw [lease] at own
    exact hw (beq_iff_eq.mp own)
  refine ⟨?_, (h.board_barOne_of_left hk left).trans notice⟩
  rw [lease_barRequest (by rw [lease]; exact LeaseState.noConfusion), lease_beginBar, if_neg other, lease]

/-- R97, R163: a grant of the first scan to a waiter of the requester is revoked by its barring. -/
theorem granted_barred {w : Waiter} {j : LeaseId} (hg : GrantedTo s v w j) (left : Left v w) (hw : w.requester = p) :
    GrantedThenBarred s (v.barRequest (· == p)) w j := by
  obtain ⟨lease, notice⟩ := hg
  have own : (v.lease j).state = .held ∧ ((v.lease j).holder == p) = true := by
    rw [lease]
    exact ⟨rfl, beq_iff_eq.mpr hw⟩
  refine ⟨?_, (h.board_barOne_of_left hk left).trans notice⟩
  rw [lease_barRequest (by rw [lease]; exact LeaseState.noConfusion), lease_beginBar, if_pos own, lease]
  rfl

/-- A slot that was FREE: untouched, granted, or granted to the requester and then revoked. -/
theorem barOne_free {j : LeaseId} (hf : (s.lease j).state = .free) :
    (v.barRequest (· == p)).lease j = s.lease j ∨ Granted s (v.barRequest (· == p)) j ∨
      ∃ w ∈ s.le.waiters, w.requester = p ∧ Left (v.barRequest (· == p)) w ∧
        GrantedThenBarred s (v.barRequest (· == p)) w j := by
  obtain ⟨_, first, _⟩ := h.scanned
  obtain ⟨_, second, _⟩ := barRequest_scanned (who := fun q => q == p) (h.keys hk)
  rcases first j hf with same | ⟨w, hw, left, hg⟩
  · have free : (v.lease j).state = .free := by rw [same, hf]
    rcases second j free with after | ⟨w, hw, left, hg⟩
    · exact .inl (after.trans same)
    · exact .inr (.inl ⟨w, h.scanned.1.subset hw, left, h.grantedTo free hg⟩)
  · by_cases own : w.requester = p
    · exact .inr (.inr ⟨w, hw, own, left_barOne left, h.granted_barred hk hg left own⟩)
    · exact .inr (.inl ⟨w, hw, left_barOne left, h.granted_stands hk hg left own⟩)

/-- A waiter is in the list still, or the first scan granted it a slot. -/
theorem waits_or_granted {w : Waiter} (hw : w ∈ s.le.waiters) :
    w ∈ v.le.waiters ∨ (Left v w ∧ ∃ j : LeaseId, GrantedTo s v w j) := by
  by_cases stays : w ∈ v.le.waiters
  · exact .inl stays
  · have left : Left v w := fun u hu k => stays (hk.eq (h.scanned.1.subset hu) hw k ▸ hu)
    exact .inr ⟨left, h.scanned.2.2 w hw left not_false⟩

/-- A waiter of another requester that left was granted a slot by one of the two scans. -/
theorem barOne_leavers {w : Waiter} (hw : w ∈ s.le.waiters) (left : Left (v.barRequest (· == p)) w)
    (other : w.requester ≠ p) :
    ∃ j : LeaseId, GrantedTo s (v.barRequest (· == p)) w j := by
  rcases h.waits_or_granted hk hw with stays | ⟨gone, j, hg⟩
  · have walked := barRequest_walked (who := fun q => q == p) (h.keys hk)
    obtain ⟨j, hf, hg⟩ := walked.leavers w (mem_waiters_beginBar.mpr ⟨stays, beq_false_of_ne other⟩) left
    have free := free_of_beginBar hf
    exact ⟨j, h.grantedTo free (grantedTo_of_beginBar free hg)⟩
  · exact ⟨j, h.granted_stands hk hg gone other⟩

/-- A waiter of the requester is dropped, or was granted a slot that its barring revoked. -/
theorem barOne_own_waiter {w : Waiter} (hw : w ∈ s.le.waiters) (own : w.requester = p) :
    ((v.barRequest (· == p)).port p).board[w.tag] = some (.dropped .portBarred) ∨
      ∃ j : LeaseId, GrantedThenBarred s (v.barRequest (· == p)) w j := by
  rcases h.waits_or_granted hk hw with stays | ⟨gone, j, hg⟩
  · obtain ⟨dropped, _⟩ := waiter_barred (who := fun q => q == p) (h.keys hk) stays (beq_iff_eq.mpr own)
    rw [own] at dropped
    exact .inl dropped
  · exact .inr ⟨j, h.granted_barred hk hg gone own⟩

theorem barOne_board (q : PortId) : BoardKept s (v.barRequest (· == p)) q := by
  intro tag
  rcases barRequest_boardKept (who := fun q => q == p) (h.keys hk) q tag with same | ⟨w, hw, hr, ht, left⟩
  · exact (h.board q tag).imp same.trans fun ⟨w, hw, hr, ht, left⟩ => ⟨w, hw, hr, ht, left_barOne left⟩
  · exact .inr ⟨w, h.scanned.1.subset hw, hr, ht, left⟩

theorem barOne_others {q : PortId} (hq : q ≠ p) : PortKept s (v.barRequest (· == p)) q := by
  obtain ⟨second, _⟩ := barRequest_portKept (who := fun q => q == p) (h.keys hk) (beq_false_of_ne hq)
  obtain ⟨first, _⟩ := h.others q hq
  refine ⟨?_, h.barOne_board hk q⟩
  rw [first] at second
  exact second

end EarlyRevocation

/-! ## The fault counted (R160) -/

/-- R145, R160: an EARLY_REVOKED reply is placed, and then a fault of the requester is counted. -/
theorem submit_of_earlyRevoked {s t : State} {p : PortId} {x : Reply} (h : s.leCommand p = (t, x))
    (hx : x.code = .earlyRevoked) : s.submit p = (Answered p x t).countFault p := by
  have placed : (t.placeReply p x).answer p .writeDone = Answered p x t := updPort_updPort t p _ _
  unfold State.submit
  rw [h]
  dsimp only
  rw [if_pos hx, placed]

section Fault

variable {s : State} {p : PortId} {id : LeaseId} {x : Reply}

theorem requester_answered (x : Reply) (t : State) : ((Answered p x t).port p).requester = (t.port p).requester := by
  unfold Answered
  rw [port_updPort_self]

theorem port_answered_ne {q : PortId} (h : p ≠ q) (x : Reply) (t : State) : (Answered p x t).port q = t.port q :=
  port_updPort_ne t _ h

/-- R111: the requester's record and the values in force are as before the revocation. -/
theorem settle_revokeEarly_ptc (id : LeaseId) (s : State) :
    (∀ q : PortId, ((s.settle (s.revokeEarly id)).port q).requester = (s.port q).requester) ∧
    (s.settle (s.revokeEarly id)).ptc.threshold = s.ptc.threshold ∧
    (s.settle (s.revokeEarly id)).ptc.limit = s.ptc.limit := by
  have work : LeaseWork s (s.settle (s.revokeEarly id)) :=
    settle_leaseWork s ((putLease_leaseWork id _ s).trans (revoke_leaseWork _ id _))
  exact ⟨fun q => by rw [work.port q], work.threshold, work.limit⟩

variable (held : (s.lease id).state = .held) (holder : (s.lease id).holder = p) (hk : KeysUnique s.le.waiters)

include held hk in
/-- R110: no flag but SLOTS_LOW is raised by the revocation and its scan. -/
theorem flagged_settle_revokeEarly {e : Event} (he : e ≠ .slotsLow) :
    (s.settle (s.revokeEarly id)).flagged e = s.flagged e := by
  rw [(settle_walked s ((revokeEarly_beforeScan held).waiters ▸ hk)).flags e he, State.flagged, mgp_revokeEarly held]
  rfl

include held holder hk

/-- R160: below the threshold. -/
theorem earlyRevocation_counted (hn : (s.port p).requester.faults + 1 < s.ptc.threshold) :
    let v := (Answered p x (s.settle (s.revokeEarly id))).countFault p
    EarlyRevocation s v p id x { (s.port p).requester with faults := (s.port p).requester.faults + 1 } ∧
      ∀ e : Event, e ≠ .slotsLow → v.flagged e = s.flagged e := by
  obtain ⟨requester, threshold, _⟩ := settle_revokeEarly_ptc id s
  have record := (requester_answered (p := p) x (s.settle (s.revokeEarly id))).trans (requester p)
  have below : ((Answered p x (s.settle (s.revokeEarly id))).port p).requester.faults + 1 <
      (Answered p x (s.settle (s.revokeEarly id))).ptc.threshold := by
    rw [record]
    exact hn.trans_eq threshold.symm
  dsimp only
  rw [countFault_of_lt below, record]
  refine ⟨earlyRevocation held holder hk ⟨_, _, rfl⟩ fun q => ?_, fun e he => flagged_settle_revokeEarly held hk he⟩
  rw [port_updPort]
  split
  · next e => rw [← e, record]
  · next e => rw [port_answered_ne e]

/-- R161: at the threshold. -/
theorem earlyRevocation_barred (hn : s.ptc.threshold ≤ (s.port p).requester.faults + 1) :
    let barred := Barred s.ptc.limit (s.port p).requester
    ∃ v, (Answered p x (s.settle (s.revokeEarly id))).countFault p = v.barRequest (· == p) ∧
      EarlyRevocation s v p id x barred ∧
      ∀ e : Event, e ≠ .slotsLow → v.flagged e = (s.flagged e || decide (e = barringEvent barred)) := by
  obtain ⟨requester, threshold, limit⟩ := settle_revokeEarly_ptc id s
  have record := (requester_answered (p := p) x (s.settle (s.revokeEarly id))).trans (requester p)
  have reached : (Answered p x (s.settle (s.revokeEarly id))).ptc.threshold ≤
      ((Answered p x (s.settle (s.revokeEarly id))).port p).requester.faults + 1 := by
    rw [record]
    exact threshold.trans_le hn
  have bar : (Answered p x (s.settle (s.revokeEarly id))).ptc.limit = s.ptc.limit := limit
  refine ⟨_, countFault_of_le reached, earlyRevocation held holder hk ⟨_, _, rfl⟩ fun q => ?_, fun e he => ?_⟩
  · rw [port_barredPort, record, bar]
    split
    · next e => rw [← e]
    · next e => rw [port_answered_ne e]
  · rw [flagged_barredPort, record, bar, ← flagged_settle_revokeEarly held hk he]
    rfl

end Fault

end Sys2Proof.Machine
end

section
/-! RENEW whole (R66, R110 to R112, R160, R161): the branches of the command put together. -/

namespace Sys2Proof.Machine

open Sys2Proof.Safety Sys2Proof.Claims

section Branches

variable {s : State} {p : PortId} {w0 : Word} (passes : s.identity p (reqLease w0) (reqGeneration w0) = none)
include passes

/-- R111: an early renewal below the limit is counted. -/
theorem leRenew_early (early : isEarly (s.lease (reqLease w0)) (s.region (s.lease (reqLease w0)).region) = true)
    (below : (s.lease (reqLease w0)).faults + 1 < (s.region (s.lease (reqLease w0)).region).earlyLimit) :
    s.leRenew p w0 = (SetLease (reqLease w0) (s.lease (reqLease w0)).renewedEarly s,
      Reply.ofLease .early (reqLease w0) (reqGeneration w0)) := by
  obtain ⟨_, held, _⟩ := identity_eq_none.mp passes
  rw [← putLease_of_held (l := (s.lease (reqLease w0)).renewedEarly) held held]
  exact ((leRenew_of_none passes).trans (if_pos early)).trans (if_neg (Nat.not_le.mpr below))

/-- R111: an early renewal at the limit. -/
theorem leRenew_earlyRevoked (early : isEarly (s.lease (reqLease w0)) (s.region (s.lease (reqLease w0)).region) = true)
    (limit : (s.region (s.lease (reqLease w0)).region).earlyLimit ≤ (s.lease (reqLease w0)).faults + 1) :
    s.leRenew p w0 = (s.settle (s.revokeEarly (reqLease w0)),
      Reply.ofLease .earlyRevoked (reqLease w0) (reqGeneration w0)) :=
  ((leRenew_of_none passes).trans (if_pos early)).trans (if_pos limit)

variable (inTime : ¬isEarly (s.lease (reqLease w0)) (s.region (s.lease (reqLease w0)).region) = true)
include inTime

/-- R112: a renewal that a waiter of higher priority stands against. -/
theorem leRenew_denied
    (denied : ((s.region (s.lease (reqLease w0)).region).yield && s.deniedByWaiter (s.lease (reqLease w0))) = true) :
    s.leRenew p w0 = (s, Reply.ofLease .deniedWaiter (reqLease w0) (reqGeneration w0)) :=
  ((leRenew_of_none passes).trans (if_neg inTime)).trans (if_pos denied)

/-- R66: a renewal. -/
theorem leRenew_ok
    (free : ¬((s.region (s.lease (reqLease w0)).region).yield && s.deniedByWaiter (s.lease (reqLease w0))) = true) :
    s.leRenew p w0 =
      ((SetLease (reqLease w0) { s.lease (reqLease w0) with remaining := (s.lease (reqLease w0)).term } s).updPort p
        fun q => { q with requester := { q.requester with faults := q.requester.faults - 1 } },
        Reply.ofLease .ok (reqLease w0) (reqGeneration w0)) := by
  obtain ⟨_, held, _⟩ := identity_eq_none.mp passes
  rw [← putLease_of_held (l := { s.lease (reqLease w0) with remaining := (s.lease (reqLease w0)).term }) held held]
  exact ((leRenew_of_none passes).trans (if_neg inTime)).trans (if_neg free)

end Branches

/-- R161: the event that a barring raises. -/
theorem barringEvent_flags (limit : Nat) (r : Requester) :
    (decide (Event.portLockedOut = barringEvent (Barred limit r)) = decide ((Barred limit r).state = .lockedOut)) ∧
    (decide (Event.portQuarantined = barringEvent (Barred limit r)) = decide ((Barred limit r).state = .quarantined)) := by
  unfold barringEvent
  rcases Barred_state limit r with state | state <;> simp [state]

theorem barringEvent_cases (r : Requester) : barringEvent r = .portLockedOut ∨ barringEvent r = .portQuarantined :=
  ite_eq_or_eq _ _ _

/-- Settles O20: the identity, then whether the renewal is early; at the early limit by whether the threshold is reached. -/
theorem renewIsWeighed : Obligations.RenewIsWeighed := by
  intro s p be data h w0 id gen l d reply early denied n
  have ⟨hopen, hb, hl, hc⟩ := h
  have answers : ∀ {t : State} {r : Reply}, r.code ≠ .earlyRevoked → s.leRenew p w0 = (t, r) →
      exec (.renew p be data) s = .next (Answered p r t) := fun hne k =>
    exec_of_reply (code := 2) h (by decide) data ((leCommand_renew hl hc).trans k) hne
  refine ⟨fun stale => ?_, fun hg other => ?_, fun hg held holder => ?_⟩
  · exact answers ResultCode.noConfusion (leRenew_of_some (identity_of_stale stale p))
  · exact answers ResultCode.noConfusion (leRenew_of_some (identity_of_notHeld hg fun mine => other mine.2))
  have passes : s.identity p id gen = none := identity_eq_none.mpr ⟨hg, held, holder⟩
  refine ⟨fun isEarly below => ?_, fun isEarly limit unique => ?_, fun inTime isDenied => ?_, fun inTime free => ?_⟩
  · exact answers ResultCode.noConfusion (leRenew_early passes (isEarly_iff.mpr isEarly) below)
  · have revoked := (leCommand_renew hl hc).trans (leRenew_earlyRevoked passes (isEarly_iff.mpr isEarly) limit)
    have submitted : exec (.renew p be data) s =
        .next ((Answered p (reply .earlyRevoked) (s.settle (s.revokeEarly id))).countFault p) :=
      (exec_leaseRow_submit (code := 2) hopen hb (by decide) hc data).trans
        (congrArg Host.Outcome.next (submit_of_earlyRevoked revoked rfl))
    rw [submitted]
    have keys : KeysUnique s.le.waiters := unique.1
    by_cases hn : n < s.ptc.threshold
    · obtain ⟨kept, flags⟩ := earlyRevocation_counted (x := reply .earlyRevoked) held holder keys hn
      have notBarred : ¬s.ptc.threshold ≤ n := Nat.not_le.mpr hn
      refine ⟨_, rfl, kept.lease_self held, ?port, fun j hj used => ?used, fun k => absurd k notBarred, kept.scanned.1,
        fun j hf => (kept.scanned.2.1 j hf).imp_right .inl, fun w hw left _ => kept.scanned.2.2 w hw left not_false,
        fun k => absurd k notBarred, fun k => kept.done (k.resolve_right notBarred), ?locked, ?quarantined, kept.board p,
        fun q => kept.others q, ?quiet⟩
      case port =>
        rw [if_pos hn]
        exact kept.own
      case used => rw [if_neg fun k => notBarred k.1, kept.lease_ne hj used]
      case locked => rw [flags _ (by decide), decide_eq_false fun k => notBarred k.1, Bool.or_false]
      case quarantined => rw [flags _ (by decide), decide_eq_false fun k => notBarred k.1, Bool.or_false]
      case quiet =>
        rw [if_pos hn]
        exact kept.rest.quiet fun e he => flags e (by simpa using he)
    · have reached : s.ptc.threshold ≤ n := Nat.not_lt.mp hn
      obtain ⟨v, barred, kept, flags⟩ := earlyRevocation_barred (x := reply .earlyRevoked) held holder keys reached
      rw [barred]
      have raised : ∀ e : Event, e ≠ .slotsLow → (v.barRequest (· == p)).flagged e = _ := fun e he =>
        (barRequest_flags (kept.keys keys) e he).trans (flags e he)
      obtain ⟨locked, quarantined⟩ := barringEvent_flags s.ptc.limit (s.port p).requester
      refine ⟨_, rfl, kept.barOne_lease_self held, ?port', fun j hj used => ?used', fun _ w hw => ?waiters, ?sublist,
        fun j hf => ?free, fun w hw left other => ?leavers, fun _ w hw own => kept.barOne_own_waiter keys hw own,
        fun _ => barRequest_done _ v, ?locked', ?quarantined', kept.barOne_board keys p,
        fun q hq => kept.barOne_others keys hq, ?quiet'⟩
      case port' =>
        rw [if_neg hn]
        exact kept.barOne_own
      case used' =>
        rw [kept.barOne_lease_ne hj used]
        simp only [reached, true_and]
      case waiters => exact ne_of_beq_false (mem_waiters_barRequest (who := (· == p)) hw).2
      case sublist =>
        obtain ⟨fewer, _⟩ := barRequest_scanned (who := (· == p)) (kept.keys keys)
        exact fewer.trans kept.scanned.1
      case free => exact (kept.barOne_free keys hf).imp_right fun k => k.imp_right fun barred => ⟨reached, barred⟩
      case leavers => exact kept.barOne_leavers keys hw left fun own => other ⟨reached, own⟩
      case locked' =>
        rw [raised _ (by decide), locked]
        simp only [reached, true_and]
      case quarantined' =>
        rw [raised _ (by decide), quarantined]
        simp only [reached, true_and]
      case quiet' =>
        rw [if_neg hn]
        refine kept.barOne_rest.quiet fun e he => ?_
        simp only [List.mem_cons, List.not_mem_nil, or_false, not_or] at he
        obtain ⟨notLow, notQuarantined, notLocked⟩ := he
        have apart : e ≠ barringEvent (Barred s.ptc.limit (s.port p).requester) := fun k =>
          (barringEvent_cases _).elim (fun c => notLocked (k.trans c)) fun c => notQuarantined (k.trans c)
        rw [raised e notLow, decide_eq_false apart, Bool.or_false]
  · exact answers ResultCode.noConfusion
      (leRenew_denied passes (fun k => inTime (isEarly_iff.mp k)) (denied_iff.mpr isDenied))
  · exact answers ResultCode.noConfusion
      (leRenew_ok passes (fun k => inTime (isEarly_iff.mp k)) fun k => free (denied_iff.mp k))

end Sys2Proof.Machine
end
